-- ==== Sys2Proof/Word.lean ====
section
/-! DEFINITION. The words of the SD-40: the values the manual gives a width in bits and that wrap at it. -/

namespace Sys2Proof

/-- One octet of the service port (R187: clocked most significant bit first). -/
abbrev Octet := BitVec 8

/-- A value of the elapsed count: 48 bits, in oscillator microseconds, wrapping to 0 (R2). -/
abbrev Elapsed := BitVec 48

/-- An epoch: 8 bits, rising by one at each step and each RESTART, wrapping from 255 to 0 (R18, R22). -/
abbrev Epoch := BitVec 8

/-- A notice sequence: 0 to 255, modulo 256 (R40, R120). -/
abbrev NoticeSeq := BitVec 8

/-- An event or deviation sequence number: 0 to 65 535, modulo 65 536 (R98, R155). -/
abbrev SeqNumber := BitVec 16

end Sys2Proof
end

