-- ==== Sys2Proof/Syntax.lean ====
section
/-! DEFINITION. The commands of the SD-40: one constructor of `Instr` for each row of spec/opcode_table.json, with
the operands that come from outside the block (a level, a frame off the line, the octets of a select period). -/

namespace Sys2Proof

/-- How the dominant lead-in of a frame proves (R25): a TIME start mark of 32 bit times, or a short one. -/
inductive StartMark where
  | time
  | short
  deriving DecidableEq, Repr

/-- How an own frame ends for the station (R31). -/
inductive FrameEnd where
  | lost
  | collided
  | objected
  | completed
  deriving DecidableEq, Repr

/-- Why a received frame is bad (R33): malformed (R25), or well formed with a check that does not agree. -/
inductive BadFrame where
  | malformed
  | checkDisagrees
  deriving DecidableEq, Repr

/-- The supply-status input (R172). -/
inductive Supply where
  | normal
  | reduced
  deriving DecidableEq, Repr

/-- The body of a TIME frame, in the widths of R195. -/
structure TimeBody where
  day : BitVec 16
  us : BitVec 37
  epoch : Epoch
  timeState : BitVec 3
  deriving DecidableEq, Repr

/-- The body of a NOTICE or URGENT NOTICE frame, in the widths of R195; `newState` is ON when true. -/
structure NoticeBody where
  channel : BitVec 6
  newState : Bool
  seq : NoticeSeq
  day : BitVec 16
  us : BitVec 37
  epoch : Epoch
  timeState : BitVec 3
  deriving DecidableEq, Repr

/-- The body of a PRESENCE frame, in the widths of R195. -/
structure PresenceBody where
  timeState : BitVec 3
  grade : BitVec 4
  epoch : Epoch
  lastSeq : NoticeSeq
  standing : BitVec 2
  deriving DecidableEq, Repr

/-- A TIME frame (kind 00): rank, origin, body and check (R195, R196). -/
structure TimeFrame where
  rank : BitVec 4
  origin : BitVec 6
  body : TimeBody
  check : BitVec 16
  deriving DecidableEq, Repr

/-- A notice frame: kind 01 when `urgent`, kind 10 otherwise (R195). -/
structure NoticeFrame where
  urgent : Bool
  rank : BitVec 4
  origin : BitVec 6
  body : NoticeBody
  check : BitVec 16
  deriving DecidableEq, Repr

/-- A PRESENCE frame (kind 11). -/
structure PresenceFrame where
  rank : BitVec 4
  origin : BitVec 6
  body : PresenceBody
  check : BitVec 16
  deriving DecidableEq, Repr

/-- What a select period that carries a command brings beside the command code (R187): the parameter octets, and
whether the period began while the station was NOT-QUALIFIED (R186: such a period is discarded whole). -/
structure SelectPeriod where
  params : List Octet
  early : Bool
  deriving DecidableEq, Repr

/-- The commands, one for each row of spec/opcode_table.json, in the table's order. Origins, pairs and clock lines
are numbered from 1 in the manual: `peer k` is origin k + 1, `pair k` is pair k + 1, `line k` is line k + 1. -/
inductive Instr where
  | powerOn
  | qualificationEnd
  | secondMark
  | correctionSecondEnd
  | holdoverEntry
  | presenceDue
  | beginReadyFrame
  | frameOutcome (how : FrameEnd)
  | receiveTimeFrame (f : TimeFrame)
  | receiveNotice (f : NoticeFrame)
  | receivePresence (f : PresenceFrame)
  | receiveBadFrame (why : BadFrame)
  | silenceExpiry (peer : Fin 62)
  | silenceTimerExpiry
  | holdoverAging
  | referencePulse
  | referenceLoss
  | edge (terminal : Fin 40) (level : Bool)
  | settleExpiry (terminal : Fin 40)
  | limitExpiry (pair : Fin 8)
  | openFire
  | missFire
  | supplyChange (supply : Supply)
  | stepBoundary (line : Fin 4)
  | pulseStart (line : Fin 4)
  | pulseEnd (line : Fin 4)
  | unknownCommand (octets : List Octet) (early : Bool)
  | configure (p : SelectPeriod)
  | start (p : SelectPeriod)
  | restart (p : SelectPeriod)
  | readStatus (p : SelectPeriod)
  | takeEvents (p : SelectPeriod)
  | peekEvent (p : SelectPeriod)
  | takeDeviation (p : SelectPeriod)
  | loadEntry (p : SelectPeriod)
  | cancelEntry (p : SelectPeriod)
  | readEntry (p : SelectPeriod)
  | readHeard (p : SelectPeriod)
  | clearUrgent (p : SelectPeriod)
  | setTime (p : SelectPeriod)
  | setDial (p : SelectPeriod)
  | dominantLeadIn (mark : StartMark)
  | lineIdle
  | answerOnlySelectPeriod (octets : Nat) (early : Bool)
  deriving DecidableEq, Repr

end Sys2Proof
end

