-- ==== Sys2Proof/Decode.lean ====
section
/-! DEFINITION. Reading a command: from the octets of a select period, by the command codes of R198, and from the bits
of its opcode-table row. No row of spec/opcode_table.json gives bits: the SD-40 takes events and select periods, not
instruction words, so no word spells a command. -/

namespace Sys2Proof

/-- The commands that the host sends by a command code (R188). -/
inductive PortCommand where
  | configure
  | start
  | restart
  | readStatus
  | takeEvents
  | peekEvent
  | takeDeviation
  | loadEntry
  | cancelEntry
  | readEntry
  | readHeard
  | clearUrgent
  | setTime
  | setDial
  deriving DecidableEq, Repr

/-- The command code (R198). -/
def PortCommand.code : PortCommand → Octet
  | .configure => 1
  | .start => 2
  | .restart => 3
  | .readStatus => 4
  | .takeEvents => 5
  | .peekEvent => 6
  | .takeDeviation => 7
  | .loadEntry => 8
  | .cancelEntry => 9
  | .readEntry => 10
  | .readHeard => 11
  | .clearUrgent => 12
  | .setTime => 13
  | .setDial => 14

/-- The commands in the order of R198. -/
def portCommands : List PortCommand :=
  [.configure, .start, .restart, .readStatus, .takeEvents, .peekEvent, .takeDeviation, .loadEntry, .cancelEntry,
    .readEntry, .readHeard, .clearUrgent, .setTime, .setDial]

/-- The command that a code names (R198); 0 and the codes above 14 name none. -/
def commandOfCode (code : Octet) : Option PortCommand := portCommands.find? fun c => c.code == code

/-- The row of the opcode table that a command is, with its parameter octets. -/
def PortCommand.row : PortCommand → SelectPeriod → Instr
  | .configure => .configure
  | .start => .start
  | .restart => .restart
  | .readStatus => .readStatus
  | .takeEvents => .takeEvents
  | .peekEvent => .peekEvent
  | .takeDeviation => .takeDeviation
  | .loadEntry => .loadEntry
  | .cancelEntry => .cancelEntry
  | .readEntry => .readEntry
  | .readHeard => .readHeard
  | .clearUrgent => .clearUrgent
  | .setTime => .setTime
  | .setDial => .setDial

/-- The command that a select period's octets name, `none` where they are more than 72 or their code names none (R187).
-/
def namedCommand (octets : List Octet) : Option PortCommand :=
  if 72 < octets.length then none else octets.head?.bind commandOfCode

/-- The command that the octets of one select period are (R187, R198): the command code first, its parameters after it;
without an octet the period only reads the answer. -/
def periodCommand (octets : List Octet) (early : Bool) : Instr :=
  match namedCommand octets with
  | some c => c.row { params := octets.tail, early := early }
  | none => if octets = [] then .answerOnlySelectPeriod 0 early else .unknownCommand octets early

/-- The octets of an UNKNOWN_COMMAND: more than 72, or a code that names no command (R187, R198). -/
def namesNoCommand (octets : List Octet) : Bool := !octets.isEmpty && (namedCommand octets).isNone

/-- The octets of a command (R198). -/
def PortCommand.octets (c : PortCommand) (params : List Octet) : List Octet := c.code :: params

/-- The command that the word `w` of `nbits` bits spells by the table: none, since no row has bits. -/
def decodeTableWord (_nbits _w : Nat) : Option Instr := none

end Sys2Proof
end

