-- ==== Sys2Proof/Machine/Dates.lean ====
section
/-! DEFINITION. Dates and durations: the cycle of 65 536 days (R7), and differences of the elapsed count (R2). -/

namespace Sys2Proof.Machine

/-- A date: a day number 0 to 65 535 and microseconds of day 0 to 86 399 999 999 (section Conventions). -/
structure Date where
  day : Nat
  us : Nat
  deriving DecidableEq, Repr

/-- One day in microseconds. -/
def dayLength : Nat := 86400000000

/-- The length of the cycle of R7, in microseconds. -/
def cycleLength : Nat := 65536 * dayLength

/-- A date placed on the cycle of R7. -/
def placeDate (d : Date) : Nat := d.day * dayLength + d.us

/-- The difference of two dates, from −32 768 days inclusive to +32 768 days exclusive; positive when the first is
the later (R7). -/
def dateDiff (a b : Date) : Int :=
  let r := ((placeDate a : Int) - (placeDate b : Int)) % (cycleLength : Int)
  if r < (cycleLength : Int) / 2 then r else r - (cycleLength : Int)

/-- A signed count of microseconds added to a date (R7). -/
def dateAdd (d : Date) (n : Int) : Date :=
  let r := (((placeDate d : Int) + n) % (cycleLength : Int)).toNat
  { day := r / dayLength, us := r % dayLength }

/-- The first date is at or before the second, by R7. -/
def dateAtOrBefore (a b : Date) : Bool := decide (dateDiff a b ≤ 0)

/-- The first date is before the second, by R7. -/
def dateBefore (a b : Date) : Bool := decide (dateDiff a b < 0)

/-- The time from the elapsed value `since` to `now`, modulo 2^48 (R2). -/
def elapsedSince (now since : Elapsed) : Nat := (now - since).toNat

/-- The elapsed count has reached a point. DEDUCED (assumption log 4): every duration is far shorter than the wrap
(R2), so a point is reached when it lies less than half the wrap behind, the rule R88 gives for earlier and later. -/
def reached (now point : Elapsed) : Bool := decide (elapsedSince now point < 2 ^ 47)

/-- A duration in microseconds as a step of the elapsed count. -/
def usSpan (n : Nat) : Elapsed := BitVec.ofNat 48 n

/-- A count that saturates at `limit` (section Conventions). -/
def saturatingAdd (limit count n : Nat) : Nat := min limit (count + n)

end Sys2Proof.Machine
end

