-- ==== Sys2Proof/Machine/Blocks.lean ====
section
/-! DEFINITION. The state of the ten blocks of the SD-40, as plain data: one structure for each block, one field for
each item its chapter gives it. -/

namespace Sys2Proof.Machine

/-! ## Time base (chapter 1) -/

/-- The time states of the agreement controller (section 3.1). -/
inductive TimeState where
  | notStarted
  | acquiring
  | selfTimed
  | agreed
  | holdover
  | referenced
  deriving DecidableEq, Repr

/-- A date as a block takes it (R3): with the epoch and the station's time state of the same instant. -/
structure Stamp where
  date : Date
  epoch : Epoch
  timeState : TimeState
  deriving DecidableEq, Repr

/-- The running correction second (R8): its total K in sixty-fourths, and the index of the oscillator microsecond
that comes next in it. -/
structure CorrectionSecond where
  total : Int
  index : Nat
  deriving DecidableEq, Repr

/-- The time base. `qualified` is the qualification state (R1). `slew` is s, 0 exactly when no span is running, and
`trim` is F (section 1.3). `markDue` is the MODEL's own: the second number of a second mark that the last advance
reached and that SECOND_MARK has not yet taken; `boundaryDue` is the same for STEP_BOUNDARY, by clock line. -/
structure TimeBase where
  qualified : Bool
  elapsed : Elapsed
  date : Date
  fraction : Nat
  trim : Int
  slew : Int
  correction : Option CorrectionSecond
  epoch : Epoch
  outliers : List Int
  markDue : Option Nat
  boundaryDue : Vector Bool 4
  deriving DecidableEq, Repr

/-! ## Agreement controller (chapter 3) -/

/-- The phase of acquisition, in ACQUIRING (section 3.1). -/
inductive Phase where
  | searching
  | settling
  deriving DecidableEq, Repr

/-- The holdover entry: grade and elapsed value at entry (section 3.1). -/
structure HoldoverEntry where
  grade : Nat
  elapsed : Elapsed
  deriving DecidableEq, Repr

/-- The reference arming (R65). -/
structure Arming where
  armedDate : Date
  lastExpected : Option Date
  pulses : Nat
  lastPulse : Elapsed
  deriving DecidableEq, Repr

/-- The agreement controller (section 3.1). `acceptedThisSecond` says whether an accepted offset arrived during the
own second now running (R49). -/
structure Agreement where
  timeState : TimeState
  phase : Option Phase
  grade : Nat
  sourceGrade : Option Nat
  lineGood : Nat
  referenceGood : Nat
  withoutSource : Nat
  acceptedThisSecond : Bool
  holdover : Option HoldoverEntry
  silenceTimer : Option Elapsed
  arming : Option Arming
  deriving DecidableEq, Repr

/-! ## Line controller (chapters 2 and 7) -/

/-- The line as the station takes it (R24): idle, or busy with a frame, in the gap after a frame, or waiting for 8
recessive bit times after a bad frame or after START. -/
inductive LineCondition where
  | idle
  | frame
  | gap
  | awaitRecessive
  deriving DecidableEq, Repr

/-- The lead-in of the frame on the line: how it proved (R25), its first bit time, and the capture C taken there
(R26). The mark is absent for the frame that beat a short start mark of the station's own: of which kind that one was,
its end tells (assumption log 14). -/
structure LeadIn where
  mark : Option StartMark
  start : Elapsed
  capture : Option Stamp
  deriving DecidableEq, Repr

inductive Standing where
  | full
  | quiet
  | withdrawn
  deriving DecidableEq, Repr

/-- A frame as it stands on the line. -/
inductive Frame where
  | time (f : TimeFrame)
  | notice (f : NoticeFrame)
  | presence (f : PresenceFrame)
  deriving DecidableEq, Repr

/-- Who takes the outcome of an own frame (R31): the agreement controller, the transmit-queue item of that entry
order, or no block (R45). -/
inductive FrameOwner where
  | agreement
  | queueItem (order : Nat)
  | noBlock
  deriving DecidableEq, Repr

/-- The own frame on the line. -/
structure OwnFrame where
  frame : Frame
  owner : FrameOwner
  deriving DecidableEq, Repr

/-- The kind and body of a transmit-queue item (section 2.7). -/
inductive TxBody where
  | notice (urgent : Bool) (body : NoticeBody)
  | presence (body : PresenceBody)
  deriving DecidableEq, Repr

/-- An item of the transmit queue (section 2.7). `refreshed` says that the item took a new body while it was in
flight (R41). -/
structure TxItem where
  rank : Nat
  body : TxBody
  attempts : Nat
  eventSeq : Option SeqNumber
  order : Nat
  refreshed : Bool
  deriving DecidableEq, Repr

inductive Presence where
  | never
  | present
  | silent
  deriving DecidableEq, Repr

/-- An item of the recent notice list (R118). -/
structure RecentNotice where
  seq : NoticeSeq
  date : Date
  epoch : Epoch
  deriving DecidableEq, Repr

/-- The last PRESENCE of an origin, as announced (R122); the standing is held as the value received (R195). -/
structure LastPresence where
  timeState : TimeState
  grade : BitVec 4
  epoch : Epoch
  standing : BitVec 2
  deriving DecidableEq, Repr

/-- A heard entry (R118). -/
structure HeardEntry where
  presence : Presence
  lastGood : Option Elapsed
  silenceExpiry : Option Elapsed
  lastSeq : Option NoticeSeq
  recent : List RecentNotice
  missed : Nat
  lastPresence : Option LastPresence
  deriving DecidableEq, Repr

/-- The line controller. `remainder` marks that the frame now ending is the remainder of one the station collided on
(R35: not scored again), with the standing that the collision found and that is in force to that frame's end (R37);
`objecting` says whether the station asserted the dominant level in the objection slot of
the frame that ended last (R33). `heard` holds origins 1 to 62 at places 0 to 61. -/
structure LineController where
  condition : LineCondition
  leadIn : Option LeadIn
  ownFrame : Option OwnFrame
  remainder : Option Standing
  objecting : Bool
  score : Nat
  standing : Standing
  collisions : Nat
  goodRun : Option Nat
  txQueue : List TxItem
  nextOrder : Nat
  ownSeq : NoticeSeq
  presenceDue : Option Elapsed
  heard : Vector HeardEntry 62
  hits : Vector Nat 16
  deriving DecidableEq, Repr

/-! ## Input unit and movement timer (chapters 4 and 5) -/

/-- An open burst (R70), with its settle expiry (R73). -/
structure Burst where
  stamp : Stamp
  start : Elapsed
  latest : Elapsed
  bounces : Nat
  expiry : Elapsed
  deriving DecidableEq, Repr

/-- The per-input state (R70); levels are ON when true. -/
structure InputState where
  proven : Option Bool
  level : Bool
  burst : Option Burst
  unstable : Bool
  deriving DecidableEq, Repr

/-- The start of a movement (R86): the first edge of its drive burst. -/
structure MovementStart where
  stamp : Stamp
  elapsed : Elapsed
  deriving DecidableEq, Repr

/-- A movement pair's record (R86): the start is absent in IDLE, the limit expiry present in MOVING only. -/
inductive PairState where
  | idle
  | moving (start : MovementStart) (expiry : Elapsed)
  | overdue (start : MovementStart)
  deriving DecidableEq, Repr

/-! ## Event queue (chapter 6) -/

inductive Broadcast where
  | notShared
  | queued
  | sent
  | droppedFull
  | droppedObjected
  | droppedWithdrawn
  deriving DecidableEq, Repr

inductive Verdict where
  | normal
  | overtime
  | lateEnd
  | restarted
  deriving DecidableEq, Repr

inductive ResetCause where
  | powerOn
  | restart
  deriving DecidableEq, Repr

/-- A date with its epoch. -/
structure DatedEpoch where
  date : Date
  epoch : Epoch
  deriving DecidableEq, Repr

/-- The kinds of event record with their optional parts (R99). -/
inductive EventBody where
  | start (cause : ResetCause)
  | stateAtStart (channel : Nat) (state : Bool)
  | stateChange (channel : Nat) (state : Bool) (bounces : Nat) (broadcast : Broadcast) (noticeSeq : Option NoticeSeq)
  | chatter (channel : Nat) (bounces : Nat)
  | movement (pair : Nat) (verdict : Verdict) (start : DatedEpoch) (duration : Option Nat)
  | timeStep (oldDate newDate : Date)
  | gap (lost : Nat) (first last : DatedEpoch)
  deriving DecidableEq, Repr

/-- An event record (R99). -/
structure EventRecord where
  seq : SeqNumber
  stamp : Stamp
  body : EventBody
  deriving DecidableEq, Repr

/-- The lost tally, above 0, with the first and last lost dates (R97). -/
structure LostRun where
  tally : Nat
  first : DatedEpoch
  last : DatedEpoch
  deriving DecidableEq, Repr

/-- The event queue (R97), oldest record first; `lost` is absent while the lost tally is 0. -/
structure EventQueue where
  records : List EventRecord
  nextSeq : SeqNumber
  lost : Option LostRun
  cause : ResetCause
  deriving DecidableEq, Repr

/-! ## Timetable checker (chapter 8) -/

inductive SubjectState where
  | off
  | on
  | any
  deriving DecidableEq, Repr

inductive DueKind where
  | absolute (due : Date)
  | relative (offsetMs : Nat)
  deriving DecidableEq, Repr

inductive EntryStatus where
  | waiting
  | pending
  | armed
  | satisfied
  | missed
  | unobservable
  | cleared
  | void
  deriving DecidableEq, Repr

inductive CheckVerdict where
  | onTime
  | early
  | late
  deriving DecidableEq, Repr

/-- Due date, opening and miss deadline, present together (R130). -/
structure EntryDates where
  due : Date
  opening : Date
  missDeadline : Date
  deriving DecidableEq, Repr

/-- The matched observation of an entry (R130). -/
structure Matched where
  origin : Nat
  date : Date
  epoch : Epoch
  deriving DecidableEq, Repr

/-- A check entry: the loaded fields of R129 and the kept fields of R130. -/
structure CheckEntry where
  origin : Nat
  channel : Nat
  state : SubjectState
  dueKind : DueKind
  earlyMs : Nat
  lateMs : Nat
  grade : Nat
  predecessor : Option (Fin 256)
  status : EntryStatus
  verdict : Option CheckVerdict
  dates : Option EntryDates
  armingDate : Option Date
  snapshot : Option Nat
  matched : Option Matched
  deriving DecidableEq, Repr

inductive DeadlineKind where
  | opening
  | miss
  deriving DecidableEq, Repr

/-- An item of the deadline list (R136). -/
structure Deadline where
  date : Date
  slot : Fin 256
  kind : DeadlineKind
  deriving DecidableEq, Repr

/-- The timetable checker: the check table (an EMPTY slot is `none`), the deadline list, head first, and the two
counts of R145 and R150. -/
structure Checker where
  slots : Vector (Option CheckEntry) 256
  deadlines : List Deadline
  refused : Nat
  unmatched : Nat
  deriving DecidableEq, Repr

/-! ## Report unit (chapter 9) -/

inductive DeviationKind where
  | early
  | late
  | missed
  | unobservable
  | cleared
  deriving DecidableEq, Repr

/-- The observation part of a deviation record (R155): origin, date with epoch, and the difference in ms. -/
structure DeviationObservation where
  origin : Nat
  date : Date
  epoch : Epoch
  differenceMs : Int
  deriving DecidableEq, Repr

/-- A deviation record (R155). -/
structure Deviation where
  seq : SeqNumber
  kind : DeviationKind
  slot : Nat
  grade : Nat
  due : Date
  observation : Option DeviationObservation
  doubt : Bool
  deriving DecidableEq, Repr

/-- The seven urgent conditions (section 9.3), in the order of the CLEAR URGENT bits (R198). -/
inductive Urgent where
  | timeStepped
  | timeDegraded
  | referenceDisagree
  | lineWithdrawn
  | duplicateStation
  | eventLoss
  | clockLineFault
  deriving DecidableEq, Repr

/-- What the report unit holds for an urgent condition (R162). -/
structure UrgentRecord where
  flag : Bool
  count : Nat
  first : Option DatedEpoch
  deriving DecidableEq, Repr

/-- The report unit; `attention` is the ATTENTION output (R166). -/
structure ReportUnit where
  deviations : List Deviation
  nextSeq : SeqNumber
  displaced : Nat
  urgent : Vector UrgentRecord 7
  attention : Bool
  deriving DecidableEq, Repr

/-! ## Clock-line driver (chapter 10) -/

inductive ClockState where
  | unset
  | active
  | suspended
  | fault
  deriving DecidableEq, Repr

inductive Polarity where
  | a
  | b
  deriving DecidableEq, Repr

/-- A pulse in flight (R170); `seenOn` says that the proving terminal was sampled ON in its second half (R178). -/
structure Pulse where
  start : Elapsed
  polarity : Polarity
  seenOn : Bool
  deriving DecidableEq, Repr

/-- A clock line's record (R170) with the levels of its two drive terminals, active when true (R177). -/
structure ClockLine where
  state : ClockState
  dial : Option Nat
  nextPolarity : Polarity
  pulse : Option Pulse
  unproven : Nat
  lastStart : Option Elapsed
  driveA : Bool
  driveB : Bool
  deriving DecidableEq, Repr

/-! ## Service port (chapter 11) -/

inductive StationState where
  | notQualified
  | config
  | run
  deriving DecidableEq, Repr

inductive NoticeClass where
  | none
  | normal
  | urgent
  deriving DecidableEq, Repr

/-- A terminal item (R189): an INPUT terminal carries its settle time, notice class and notice priority. -/
inductive Terminal where
  | unused
  | input (settleMs : Nat) (noticeClass : NoticeClass) (priority : Nat)
  | clock
  | proving
  | reference
  deriving DecidableEq, Repr

/-- A configured movement pair (R85); the limit is in tenths of a second. -/
structure PairConfig where
  drive : Fin 40
  detection : Fin 40
  limitTenths : Nat
  deriving DecidableEq, Repr

/-- A configured clock line (R169). -/
structure ClockConfig where
  driveA : Fin 40
  driveB : Fin 40
  proving : Fin 40
  stepSeconds : Nat
  widthMs : Nat
  spacingSeconds : Nat
  holdMinutes : Nat
  deriving DecidableEq, Repr

/-- A set acceptance entry (R125). -/
structure AcceptEntry where
  originValue : BitVec 6
  originMask : BitVec 6
  channelValue : BitVec 6
  channelMask : BitVec 6
  offer : Bool
  deriving DecidableEq, Repr

/-- The configuration image (R189). Pairs 1 to 8 stand at places 0 to 7, lines 1 to 4 at places 0 to 3. -/
structure Image where
  station : Nat
  lineDelay : Nat
  watchLead : Nat
  grace : Nat
  silenceLimit : Nat
  attention : Nat
  terminals : Vector Terminal 40
  pairs : Vector (Option PairConfig) 8
  lines : Vector (Option ClockConfig) 4
  acceptance : Vector (Option AcceptEntry) 16
  deriving DecidableEq, Repr

/-- The service port: station state, configuration image, the held answer (R187), and the octets clocked out during
the last select period. -/
structure ServicePort where
  station : StationState
  image : Image
  answer : Option (List Octet)
  output : List Octet
  deriving DecidableEq, Repr

/-! ## Pins driven from outside -/

/-- The levels that the world puts on the in-going pins: the 40 field terminals (ON when true), whoever samples
them, and the supply-status input. -/
structure Pins where
  levels : Vector Bool 40
  supply : Supply
  deriving DecidableEq, Repr

end Sys2Proof.Machine
end

