-- ==== Sys2Proof/Machine/PowerOn.lean ====
section
/-! DEFINITION. The power-on values of each block, as its chapter gives them. -/

namespace Sys2Proof.Machine

/-- R21; the elapsed count starts from 0 (R1). -/
def timeBasePowerOn : TimeBase :=
  { qualified := false, elapsed := 0, date := { day := 0, us := 0 }, fraction := 0, trim := 0, slew := 0,
    correction := none, epoch := 0, outliers := [], markDue := none, boundaryDue := Vector.replicate 4 false }

/-- R48. -/
def agreementReset : Agreement :=
  { timeState := .notStarted, phase := none, grade := 15, sourceGrade := none, lineGood := 0, referenceGood := 0,
    withoutSource := 0, acceptedThisSecond := false, holdover := none, silenceTimer := none, arming := none }

/-- An entry never heard (R118). -/
def heardNever : HeardEntry :=
  { presence := .never, lastGood := none, silenceExpiry := none, lastSeq := none, recent := [], missed := 0,
    lastPresence := none }

/-- R44, R114, R127. The line's condition after power-on: DESIGN CHOICE (assumption log 5). -/
def linePowerOn : LineController :=
  { condition := .awaitRecessive, leadIn := none, ownFrame := none, remainder := none, objecting := false,
    score := 0, standing := .full, collisions := 0, goodRun := none, txQueue := [], nextOrder := 0, ownSeq := 0,
    presenceDue := none, heard := Vector.replicate 62 heardNever, hits := Vector.replicate 16 0 }

/-- R70, R83. The present level before START: DESIGN CHOICE (assumption log 6). -/
def inputReset : InputState := { proven := none, level := false, burst := none, unstable := false }

/-- R112. -/
def eventQueueReset (cause : ResetCause) : EventQueue :=
  { records := [], nextSeq := 0, lost := none, cause := cause }

/-- R154. -/
def checkerReset : Checker :=
  { slots := Vector.replicate 256 none, deadlines := [], refused := 0, unmatched := 0 }

/-- A clear urgent condition (R168). -/
def urgentClear : UrgentRecord := { flag := false, count := 0, first := none }

/-- R168. -/
def reportReset : ReportUnit :=
  { deviations := [], nextSeq := 0, displaced := 0, urgent := Vector.replicate 7 urgentClear, attention := false }

/-- R170. -/
def clockLinePowerOn : ClockLine :=
  { state := .unset, dial := none, nextPolarity := .a, pulse := none, unproven := 0, lastStart := none,
    driveA := false, driveB := false }

/-- The defaults of R189. -/
def imageDefault : Image :=
  { station := 1, lineDelay := 0, watchLead := 600, grace := 1500, silenceLimit := 6, attention := 4,
    terminals := Vector.replicate 40 .unused, pairs := Vector.replicate 8 none, lines := Vector.replicate 4 none,
    acceptance := Vector.replicate 16 none }

/-- R186, R187. -/
def servicePortPowerOn : ServicePort :=
  { station := .notQualified, image := imageDefault, answer := none, output := [] }

/-- The levels outside the part when nothing is known of them: DESIGN CHOICE (assumption log 7). -/
def pinsAtRest : Pins := { levels := Vector.replicate 40 false, supply := .normal }

end Sys2Proof.Machine
end

