-- ==== Sys2Proof/Machine/State.lean ====
section
/-! DEFINITION. The state of the SD-40: its ten blocks, its pins, and the queue of commands that wait. -/

namespace Sys2Proof.Machine

/-- Why the machine stops with a fault. The manual gives the SD-40 none: what is wrong with a command is answered by
a refusal code on the service port (R187), which is a next state, and every event has its effect. -/
inductive Fault where
  deriving DecidableEq, Repr

/-- Why a command has no meaning in the model. -/
inductive Refusal where
  /-- Raised by `exec` for a command whose meaning the model does not hold; no command is left so. Safe. -/
  | notModelled (mnemonic : String)
  deriving DecidableEq, Repr

/-- The state. `pending` is the queue of commands that wait, first in, first out. `supply` is the supply condition
as last sampled (R172). `freeCount` is the MODEL's own: how many free values have been read. -/
structure State where
  pending : List Instr
  pins : Pins
  time : TimeBase
  agreement : Agreement
  line : LineController
  inputs : Vector InputState 40
  pairs : Vector PairState 8
  events : EventQueue
  checker : Checker
  report : ReportUnit
  clocks : Vector ClockLine 4
  supply : Supply
  port : ServicePort
  freeCount : Nat
  deriving DecidableEq, Repr

/-- The station right after power-on (R21, R44, R48, R83, R96, R112, R154, R168, R170, R189), with no command
waiting. -/
def State.reset : State :=
  { pending := [], pins := pinsAtRest, time := timeBasePowerOn, agreement := agreementReset, line := linePowerOn,
    inputs := Vector.replicate 40 inputReset, pairs := Vector.replicate 8 .idle, events := eventQueueReset .powerOn,
    checker := checkerReset, report := reportReset, clocks := Vector.replicate 4 clockLinePowerOn,
    supply := .normal, port := servicePortPowerOn, freeCount := 0 }

end Sys2Proof.Machine
end

