-- ==== Sys2Proof/Machine/Flags.lean ====
section
/-! DEFINITION. The conditions that the blocks read from the state: grades, standings, the guard interval, suspending
causes, ATTENTION. -/

namespace Sys2Proof.Machine

/-! ## Time and agreement -/

/-- The date, epoch and time state of this instant, fraction dropped (R3). -/
def stampNow (s : State) : Stamp :=
  { date := s.time.date, epoch := s.time.epoch, timeState := s.agreement.timeState }

/-- A date with its epoch. -/
def stampEpoch (p : Stamp) : DatedEpoch := { date := p.date, epoch := p.epoch }

/-- The grade of a station AGREED on a source of that grade (R47). -/
def agreedGrade (sourceGrade : Nat) : Nat := min 13 (sourceGrade + 1)

/-- The holdover grade after that many microseconds of holdover (R47, R61). -/
def holdoverGrade (entryGrade elapsedUs : Nat) : Nat := min 13 (entryGrade + 1 + elapsedUs / 16000000)

/-- The time states in which a large offset is an outlier (R12). -/
def settledTimeState : TimeState → Bool
  | .agreed | .holdover | .referenced => true
  | .notStarted | .acquiring | .selfTimed => false

/-- The time states in which the station contends (R51). -/
def contendingTimeState : TimeState → Bool
  | .selfTimed | .agreed | .holdover | .referenced => true
  | .notStarted | .acquiring => false

/-- The reference is running: armed, and at least one pulse taken since (R53). -/
def referenceRunning (a : Agreement) : Bool :=
  match a.arming with
  | some arming => decide (1 ≤ arming.pulses)
  | none => false

/-- The station is in RUN. -/
def inRun (s : State) : Bool := s.port.station == .run

/-! ## Dating line -/

/-- The standing that a score gives outside WITHDRAWN, below 192 (R36). -/
def standingOfScore (score : Nat) : Standing := if score ≤ 95 then .full else .quiet

/-- The guard interval: the last 500 µs before the next second mark (R6, R29). -/
def inGuardInterval (t : TimeBase) : Bool := decide (999500 ≤ t.date.us % 1000000)

/-- The standings that send notices and PRESENCE (R37). -/
def maySend (s : Standing) : Bool := s != .withdrawn

/-! ## Report unit -/

/-- The place of a condition among the seven (R198). -/
def urgentIndex : Urgent → Fin 7
  | .timeStepped => 0
  | .timeDegraded => 1
  | .referenceDisagree => 2
  | .lineWithdrawn => 3
  | .duplicateStation => 4
  | .eventLoss => 5
  | .clockLineFault => 6

/-- What ATTENTION is to be (R166): an urgent flag set, or a deviation at the head with a grade at or above the
threshold. -/
def attentionCalled (threshold : Nat) (r : ReportUnit) : Bool :=
  r.urgent.toList.any (·.flag) ||
    match r.deviations.head? with
    | some d => decide (threshold ≤ d.grade)
    | none => false

/-! ## Clock lines -/

/-- A suspending cause holds (R173). -/
def suspendingCause (ts : TimeState) (supply : Supply) : Bool :=
  ts == .notStarted || ts == .acquiring || supply == .reduced

/-- The number of steps of a dial (R169). -/
def dialSteps (c : ClockConfig) : Nat := 43200 / c.stepSeconds

/-- The target position (R174). -/
def targetPosition (c : ClockConfig) (us : Nat) : Nat := us % 43200000000 / (c.stepSeconds * 1000000)

/-- Lag: how many pulses bring the hands to the target (R175). -/
def dialLag (steps target dial : Nat) : Nat := (((target : Int) - (dial : Int)) % (steps : Int)).toNat

/-- Ahead: how many steps the hands stand in front of the target (R175). -/
def dialAhead (steps target dial : Nat) : Nat := (((dial : Int) - (target : Int)) % (steps : Int)).toNat

/-- The hold span in steps, H (R175). -/
def holdSteps (c : ClockConfig) : Nat := c.holdMinutes * 60 / c.stepSeconds

/-- The catch-up spacing has passed since the last pulse start (R176). -/
def spacingPassed (now : Elapsed) (c : ClockConfig) (last : Option Elapsed) : Bool :=
  match last with
  | some start => decide (c.spacingSeconds * 1000000 ≤ elapsedSince now start)
  | none => true

/-- The decision of R176: an ACTIVE line without a pulse in flight, with a lag, outside its hold span and with its
spacing passed, starts a pulse. -/
def pulseCalled (now : Elapsed) (us : Nat) (c : ClockConfig) (l : ClockLine) : Bool :=
  match l.state, l.pulse, l.dial with
  | .active, none, some dial =>
    let steps := dialSteps c
    let target := targetPosition c us
    let ahead := dialAhead steps target dial
    decide (0 < dialLag steps target dial) && (decide (ahead = 0) || decide (holdSteps c < ahead)) &&
      spacingPassed now c l.lastStart
  | _, _, _ => false

/-- The elapsed value at which a pulse ends (R177). -/
def pulseEndPoint (c : ClockConfig) (p : Pulse) : Elapsed := p.start + usSpan (c.widthMs * 1000)

end Sys2Proof.Machine
end

