-- ==== Sys2Proof/Machine/Ops.lean ====
section
/-! DEFINITION. The operations that several blocks share: raising an urgent condition, offering an event record,
handing a deviation, reporting a broadcast state. -/

namespace Sys2Proof.Machine

/-! ## Report unit -/

/-- ATTENTION re-evaluated (R166). -/
def refreshAttention (threshold : Nat) (r : ReportUnit) : ReportUnit :=
  { r with attention := attentionCalled threshold r }

/-- A raising acts on its condition by the flag (R162). -/
def raiseRecord (d : DatedEpoch) (u : UrgentRecord) : UrgentRecord :=
  if u.flag then { u with count := saturatingAdd 255 u.count 1 }
  else { flag := true, count := 1, first := some d }

/-- A raising latched in the report unit. -/
def raiseInReport (threshold : Nat) (c : Urgent) (d : DatedEpoch) (r : ReportUnit) : ReportUnit :=
  let i := urgentIndex c
  refreshAttention threshold { r with urgent := r.urgent.set i (raiseRecord d r.urgent[i]) }

/-- An urgent condition raised with the date handed (R162). -/
def raiseUrgent (c : Urgent) (d : DatedEpoch) (s : State) : State :=
  { s with report := raiseInReport s.port.image.attention c d s.report }

/-- An urgent condition raised with the date of this instant. -/
def raiseUrgentNow (c : Urgent) (s : State) : State := raiseUrgent c (stampEpoch (stampNow s)) s

/-! ## Event queue -/

/-- Field-class records report what the field terminals did; the others are markers (R99). -/
def isFieldClass : EventBody → Bool
  | .stateChange .. | .stateAtStart .. | .chatter .. | .movement .. => true
  | .timeStep .. | .gap .. | .start .. => false

/-- Whether an offered record finds a place (R100). -/
def hasRoom (body : EventBody) (occupancy : Nat) : Bool :=
  if isFieldClass body then decide (occupancy < 508) else decide (occupancy < 512)

/-- A record admitted as the newest, with the next event sequence number (R98). -/
def admitRecord (stamp : Stamp) (body : EventBody) (q : EventQueue) : EventQueue :=
  { q with records := q.records ++ [{ seq := q.nextSeq, stamp := stamp, body := body }], nextSeq := q.nextSeq + 1 }

/-- The GAP record owed while the lost tally is above 0, admitted when the occupancy is below 512 (R102). -/
def admitGap (now : Stamp) (q : EventQueue) : EventQueue :=
  match q.lost with
  | some l =>
    if q.records.length < 512 then { admitRecord now (.gap l.tally l.first l.last) q with lost := none } else q
  | none => q

/-- The lost run after one more loss (R101, steps 2 to 4). -/
def countLoss (d : DatedEpoch) : Option LostRun → LostRun
  | none => { tally := 1, first := d, last := d }
  | some l => { l with tally := saturatingAdd 65535 l.tally 1, last := d }

/-- A record decided at its offer (R100): the queue after it, and whether the record was lost. Any GAP record owed
is admitted first. -/
def offerToQueue (now stamp : Stamp) (body : EventBody) (q : EventQueue) : EventQueue × Bool :=
  let q := admitGap now q
  if hasRoom body q.records.length then (admitRecord stamp body q, false)
  else (admitGap now { q with nextSeq := q.nextSeq + 1, lost := some (countLoss (stampEpoch stamp) q.lost) }, true)

/-- The number that the next offered record is given (R98): the GAP record owed takes its own first. -/
def offeredSeq (now : Stamp) (q : EventQueue) : SeqNumber := (admitGap now q).nextSeq

/-- A record offered by a block; a loss raises EVENT-LOSS, dated with centre time (R101). -/
def offerRecord (stamp : Stamp) (body : EventBody) (s : State) : State :=
  let r := offerToQueue (stampNow s) stamp body s.events
  let s := { s with events := r.1 }
  if r.2 then raiseUrgentNow .eventLoss s else s

/-- A record offered with the date of this instant. -/
def offerRecordNow (body : EventBody) (s : State) : State := offerRecord (stampNow s) body s

/-- A held STATE CHANGE record takes the broadcast state reported for it, from QUEUED (R107). -/
def writeBroadcast (b : Broadcast) (n : SeqNumber) : List EventRecord → List EventRecord
  | [] => []
  | r :: rest =>
    match r.body with
    | .stateChange ch st bounces .queued ns =>
      if r.seq = n then { r with body := .stateChange ch st bounces b ns } :: rest
      else r :: writeBroadcast b n rest
    | _ => r :: writeBroadcast b n rest

/-- A report of the line controller to the event queue (R43, R107). -/
def reportBroadcast (b : Broadcast) (n : SeqNumber) (s : State) : State :=
  { s with events := { s.events with records := writeBroadcast b n s.events.records } }

/-- The oldest records removed, and any GAP record owed admitted (R109). -/
def removeOldest (now : Stamp) (n : Nat) (q : EventQueue) : EventQueue :=
  admitGap now { q with records := q.records.drop n }

/-! ## Deviation queue -/

/-- The place of a record by grade, highest first, after those of its own grade (R158). -/
def insertDeviation (d : Deviation) : List Deviation → List Deviation
  | [] => [d]
  | e :: rest => if e.grade < d.grade then d :: e :: rest else e :: insertDeviation d rest

/-- A deviation record decided at the queue (R159). -/
def offerDeviation (d : Deviation) (r : ReportUnit) : ReportUnit :=
  if r.deviations.length < 64 then { r with deviations := insertDeviation d r.deviations }
  else
    match r.deviations.getLast? with
    | some lowest =>
      if lowest.grade < d.grade then
        { r with deviations := insertDeviation d r.deviations.dropLast, displaced := saturatingAdd 65535 r.displaced 1 }
      else { r with displaced := saturatingAdd 65535 r.displaced 1 }
    | none => r

/-- The time states that leave no doubt (R157). -/
def undoubtedTimeState : TimeState → Bool
  | .agreed | .referenced => true
  | _ => false

/-- DOUBT (R157). -/
def deviationDoubt (own : TimeState) (dater : Option TimeState) : Bool :=
  !undoubtedTimeState own ||
    match dater with
    | some t => !undoubtedTimeState t
    | none => false

/-- A deviation handed by the checker for the entry of a slot, with the observation and the dater's time state where
there is one (R152): the record is made with the next deviation sequence (R155 to R157) and offered (R159). -/
def handDeviation (kind : DeviationKind) (slot : Fin 256) (e : CheckEntry) (due : Date)
    (obs : Option (Matched × TimeState)) (s : State) : State :=
  let r := s.report
  let d : Deviation :=
    { seq := r.nextSeq, kind := kind, slot := slot.val, grade := e.grade, due := due,
      observation := obs.map fun o =>
        { origin := o.1.origin, date := o.1.date, epoch := o.1.epoch,
          differenceMs := (dateDiff o.1.date due).tdiv 1000 },
      doubt := deviationDoubt s.agreement.timeState (obs.map (·.2)) }
  { s with report :=
      refreshAttention s.port.image.attention (offerDeviation d { r with nextSeq := r.nextSeq + 1 }) }

end Sys2Proof.Machine
end

