-- ==== Sys2Proof/Machine/CheckerOps.lean ====
section
/-! DEFINITION. The timetable checker (chapter 8): dues, the deadline list, chains, matching and clearing. -/

namespace Sys2Proof.Machine

/-- An observation (R80, R128); `own` marks the station's own. -/
structure Observation where
  own : Bool
  origin : Nat
  channel : Nat
  state : Bool
  date : Date
  epoch : Epoch
  timeState : TimeState
  deriving DecidableEq, Repr

/-- The slots of the check table, in ascending order. -/
def allSlots : List (Fin 256) := List.finRange 256

/-- An entry written into its slot. -/
def putEntry (slot : Fin 256) (e : Option CheckEntry) (c : Checker) : Checker :=
  { c with slots := c.slots.set slot e }

/-! ## Dues (section 8.3) -/

/-- Opening and miss deadline from a due date (R134): W in seconds, G in ms. -/
def entryDates (img : Image) (earlyMs lateMs : Nat) (due : Date) : EntryDates :=
  { due := due,
    opening := dateAdd due (-((earlyMs * 1000 + img.watchLead * 1000000 : Nat) : Int)),
    missDeadline := dateAdd due ((lateMs * 1000 + img.grace * 1000 : Nat) : Int) }

/-- The due date of an entry, `base` being its predecessor's matched observation date where there is one (R134). -/
def dueDate (kind : DueKind) (base : Option Date) : Option Date :=
  match kind, base with
  | .absolute d, _ => some d
  | .relative ms, some b => some (dateAdd b ((ms * 1000 : Nat) : Int))
  | .relative _, none => none

/-! ## The deadline list (section 8.4) -/

/-- The order of the list: by date, and among equal dates by slot (R136). -/
def deadlineBefore (a b : Deadline) : Bool :=
  dateBefore a.date b.date || (decide (dateDiff a.date b.date = 0) && decide (a.slot < b.slot))

/-- An item inserted in its place (R136): before the first item held that it precedes. DESIGN CHOICE (assumption log 37,
unsafe): dates that do not lie within one half cycle have no linear order by R7, and then this first item decides. -/
def insertDeadline (d : Deadline) : List Deadline → List Deadline
  | [] => [d]
  | e :: rest => if deadlineBefore d e then d :: e :: rest else e :: insertDeadline d rest

/-- The item of a slot removed (R136). -/
def removeDeadline (slot : Fin 256) (l : List Deadline) : List Deadline := l.filter fun d => d.slot != slot

/-- The entry becomes PENDING with its due date, and its OPEN item is inserted (R134, R135). -/
def makePending (img : Image) (slot : Fin 256) (e : CheckEntry) (due : Date) (c : Checker) : Checker :=
  let dates := entryDates img e.earlyMs e.lateMs due
  { putEntry slot (some { e with status := .pending, dates := some dates }) c with
    deadlines := insertDeadline { date := dates.opening, slot := slot, kind := .opening } c.deadlines }

/-! ## Chains (section 8.5) -/

/-- The entry is a WAITING successor of a slot. -/
def waitingOn (slot : Fin 256) (e : CheckEntry) : Bool :=
  e.status == .waiting && e.predecessor == some slot

/-- The WAITING successors of a slot become VOID, and theirs in turn, down to a depth of `depth` links (R143). The
links form no cycle (R133), so 256 links reach the end of every chain. -/
def voidChain : Nat → Fin 256 → Vector (Option CheckEntry) 256 → Vector (Option CheckEntry) 256
  | 0, _, slots => slots
  | depth + 1, slot, slots =>
    allSlots.foldl (fun v j =>
      match v[j] with
      | some e => if waitingOn slot e then voidChain depth j (v.set j (some { e with status := .void })) else v
      | none => v) slots

/-- The WAITING successors of a slot become VOID down each chain (R143). -/
def voidSuccessors (slot : Fin 256) (c : Checker) : Checker := { c with slots := voidChain 256 slot c.slots }

/-- The WAITING successors of a SATISFIED entry become PENDING, in ascending slot order (R142). -/
def successorsPending (img : Image) (slot : Fin 256) (base : Date) (c : Checker) : Checker :=
  allSlots.foldl (fun c j =>
    match c.slots[j] with
    | some e =>
      if waitingOn slot e then
        match dueDate e.dueKind (some base) with
        | some due => makePending img j e due c
        | none => c
      else c
    | none => c) c

/-! ## Firing (section 8.4) -/

/-- The missed-notice count of a subject origin's heard entry, for origins 1 to 62 (R138). -/
def subjectMissed (heard : Vector HeardEntry 62) (origin : Nat) : Option Nat :=
  if h : 1 ≤ origin ∧ origin ≤ 62 then some (heard[origin - 1]'(by omega)).missed else none

/-- Whether a subject peer is SILENT or NEVER, for origins 1 to 62 (R139). -/
def subjectUnheard (heard : Vector HeardEntry 62) (origin : Nat) : Bool :=
  if h : 1 ≤ origin ∧ origin ≤ 62 then (heard[origin - 1]'(by omega)).presence != .present else false

/-- An OPEN item fires (R138). -/
def fireOpen (slot : Fin 256) (s : State) : State :=
  match s.checker.slots[slot] with
  | some e =>
    match e.dates with
    | some dates =>
      let e := { e with
        status := .armed
        armingDate := some s.time.date
        snapshot := subjectMissed s.line.heard e.origin }
      { s with checker :=
          { putEntry slot (some e) s.checker with
            deadlines := insertDeadline { date := dates.missDeadline, slot := slot, kind := .miss }
              s.checker.deadlines } }
    | none => s
  | none => s

/-- What an entry becomes at its miss deadline (R139). -/
def missStatus (heard : Vector HeardEntry 62) (e : CheckEntry) : EntryStatus :=
  if subjectUnheard heard e.origin then .unobservable
  else
    match subjectMissed heard e.origin, e.snapshot with
    | some missed, some snapshot => if snapshot < missed then .unobservable else .missed
    | _, _ => .missed

/-- The deviation kind of a missed entry (R139). -/
def missKind (st : EntryStatus) : DeviationKind := if st = .unobservable then .unobservable else .missed

/-- A MISS item fires: status, deviation, then the WAITING successors VOID (R139). -/
def fireMiss (slot : Fin 256) (s : State) : State :=
  match s.checker.slots[slot] with
  | some e =>
    match e.dates with
    | some dates =>
      let st := missStatus s.line.heard e
      let s := { s with checker := putEntry slot (some { e with status := st }) s.checker }
      let s := handDeviation (missKind st) slot e dates.due none s
      { s with checker := voidSuccessors slot s.checker }
    | none => s
  | none => s

/-- Deadline processing is paused (R141). -/
def deadlinesPaused (s : State) : Bool := s.agreement.timeState == .acquiring

/-- The head of the deadline list, when it is due and processing is not paused (R137). -/
def dueDeadline (s : State) : Option Deadline :=
  match s.checker.deadlines with
  | d :: _ => if !deadlinesPaused s && dateAtOrBefore d.date s.time.date then some d else none
  | [] => none

/-- The head fires: it is removed from the list before its entry is changed (R137). -/
def fireHead (d : Deadline) (s : State) : State :=
  let s := { s with checker := { s.checker with deadlines := s.checker.deadlines.tail } }
  match d.kind with
  | .opening => fireOpen d.slot s
  | .miss => fireMiss d.slot s

/-- At most `fuel` items fire, in list order, as long as the head is due (R137). -/
def fireItems : Nat → State → State
  | 0, s => s
  | fuel + 1, s =>
    match dueDeadline s with
    | some d => fireItems fuel (fireHead d s)
    | none => s

/-- A run of the deadline list (R137). Each item fires once, and an OPEN item brings one MISS item, so twice the
length of the list ends the run. -/
def runDeadlines (s : State) : State := fireItems (2 * s.checker.deadlines.length) s

/-! ## Observations (section 8.6) -/

/-- The observation meets the subject of an entry (R146). -/
def meetsSubject (o : Observation) (e : CheckEntry) : Bool :=
  (if e.origin = 0 then o.own else if e.origin = 63 then true else !o.own && decide (o.origin = e.origin)) &&
    decide (o.channel = e.channel) &&
    match e.state with
    | .any => true
    | .on => o.state
    | .off => !o.state

/-- The first date at which an observation is on time. -/
def windowStart (e : CheckEntry) (due : Date) : Date := dateAdd due (-((e.earlyMs * 1000 : Nat) : Int))

/-- The last date at which an observation is on time. -/
def windowEnd (e : CheckEntry) (due : Date) : Date := dateAdd due ((e.lateMs * 1000 : Nat) : Int)

/-- An entry eligible for an observation (R147). -/
def eligible (o : Observation) (e : CheckEntry) : Bool :=
  match e.dates with
  | some dates => e.status == .armed && meetsSubject o e && dateAtOrBefore dates.opening o.date
  | none => false

/-- An entry that an observation may clear (R149). -/
def clearable (o : Observation) (e : CheckEntry) : Bool :=
  match e.dates with
  | some dates =>
    (e.status == .missed || e.status == .unobservable) && meetsSubject o e &&
      dateAtOrBefore (windowStart e dates.due) o.date && dateAtOrBefore o.date (windowEnd e dates.due)
  | none => false

/-- A candidate slot with its entry and due date. -/
structure Candidate where
  slot : Fin 256
  entry : CheckEntry
  due : Date
  deriving DecidableEq, Repr

/-- The entry of a slot that passes a test, as a candidate. -/
def candidateAt (test : CheckEntry → Bool) (slots : Vector (Option CheckEntry) 256) (j : Fin 256) :
    Option Candidate :=
  match slots[j] with
  | some e =>
    match e.dates with
    | some dates => if test e then some { slot := j, entry := e, due := dates.due } else none
    | none => none
  | none => none

/-- The earlier of two candidates by due date; the first keeps its place among equal dates (R147, R149), and where R7
gives the two no order (assumption log 37). -/
def earlierCandidate (best : Option Candidate) (next : Candidate) : Option Candidate :=
  match best with
  | some b => if dateBefore next.due b.due then some next else some b
  | none => some next

/-- Among the entries that pass a test, the one with the earliest due date, and among equal due dates the lowest
slot (R147, R149). DESIGN CHOICE (assumption log 37, unsafe): one pass in slot order, which keeps the earlier of two;
dates that do not lie within one half cycle have no earliest by R7, and then the pass decides. -/
def chooseEntry (test : CheckEntry → Bool) (slots : Vector (Option CheckEntry) 256) : Option Candidate :=
  (allSlots.filterMap (candidateAt test slots)).foldl earlierCandidate none

/-- The verdict of an observation's date (R147). -/
def verdictOf (o : Observation) (e : CheckEntry) (due : Date) : CheckVerdict :=
  if dateBefore o.date (windowStart e due) then .early
  else if dateBefore (windowEnd e due) o.date then .late
  else .onTime

/-- The matched observation kept in an entry (R147). -/
def matchedOf (o : Observation) : Matched := { origin := o.origin, date := o.date, epoch := o.epoch }

/-- The deviation of a verdict, where it gives one (R148). -/
def verdictDeviation : CheckVerdict → Option DeviationKind
  | .onTime => none
  | .early => some .early
  | .late => some .late

/-- The entry as an observation satisfies it, with its verdict (R147). -/
def satisfiedBy (o : Observation) (k : Candidate) : CheckEntry :=
  { k.entry with status := .satisfied, verdict := some (verdictOf o k.entry k.due), matched := some (matchedOf o) }

/-- The entry SATISFIED and its MISS item removed (R147, R148). -/
def settleEntry (o : Observation) (k : Candidate) (c : Checker) : Checker :=
  { putEntry k.slot (some (satisfiedBy o k)) c with deadlines := removeDeadline k.slot c.deadlines }

/-- A deviation handed on for a verdict that gives one (R148). -/
def handIfAny (kind : Option DeviationKind) (slot : Fin 256) (e : CheckEntry) (due : Date)
    (obs : Matched × TimeState) (s : State) : State :=
  match kind with
  | some kind => handDeviation kind slot e due (some obs) s
  | none => s

/-- The deviation of an EARLY or LATE verdict handed on; ON-TIME hands nothing (R148). -/
def handVerdict (o : Observation) (k : Candidate) (s : State) : State :=
  handIfAny (verdictDeviation (verdictOf o k.entry k.due)) k.slot (satisfiedBy o k) k.due (matchedOf o, o.timeState) s

/-- The WAITING successors of a slot become PENDING, and what is due fires (R137, R142). -/
def releaseSuccessors (slot : Fin 256) (base : Date) (s : State) : State :=
  runDeadlines { s with checker := successorsPending s.port.image slot base s.checker }

/-- An entry becomes SATISFIED (R147, R148); the successors' items that are due fire after it (R142). -/
def satisfyEntry (o : Observation) (k : Candidate) (s : State) : State :=
  releaseSuccessors k.slot o.date (handVerdict o k { s with checker := settleEntry o k s.checker })

/-- A missed entry becomes CLEARED (R149). -/
def clearEntry (o : Observation) (k : Candidate) (s : State) : State :=
  let e := { k.entry with status := .cleared, matched := some (matchedOf o) }
  let s := { s with checker := putEntry k.slot (some e) s.checker }
  handDeviation .cleared k.slot e k.due (some (matchedOf o, o.timeState)) s

/-- The checker takes an observation (R145, R147, R149, R150). -/
def takeObservation (o : Observation) (s : State) : State :=
  if o.timeState = .acquiring then
    { s with checker := { s.checker with refused := saturatingAdd 65535 s.checker.refused 1 } }
  else
    match chooseEntry (eligible o) s.checker.slots with
    | some k => satisfyEntry o k s
    | none =>
      match chooseEntry (clearable o) s.checker.slots with
      | some k => clearEntry o k s
      | none => { s with checker := { s.checker with unmatched := saturatingAdd 65535 s.checker.unmatched 1 } }

/-! ## Loading and cancelling (sections 8.2 and 8.5) -/

/-- The fields of LOAD ENTRY, judged to lie in their ranges (R129, R131). -/
structure LoadFields where
  slot : Fin 256
  origin : Nat
  channel : Nat
  state : SubjectState
  dueKind : DueKind
  earlyMs : Nat
  lateMs : Nat
  grade : Nat
  predecessor : Option (Fin 256)
  deriving DecidableEq, Repr

/-- The predecessor named is an entry other than the entry itself, and a RELATIVE due names one (R131). -/
def predecessorOk (f : LoadFields) (c : Checker) : Bool :=
  match f.predecessor, f.dueKind with
  | some p, _ => (c.slots[p]).isSome && decide (p ≠ f.slot)
  | none, .relative _ => false
  | none, .absolute _ => true

/-- The miss deadline an ABSOLUTE entry would have lies after present centre time (R131). -/
def deadlineAhead (img : Image) (now : Date) (f : LoadFields) : Bool :=
  match f.dueKind with
  | .absolute due => !dateAtOrBefore (entryDates img f.earlyMs f.lateMs due).missDeadline now
  | .relative _ => true

/-- The entry as it is loaded, before its first status. -/
def loadedEntry (f : LoadFields) (st : EntryStatus) : CheckEntry :=
  { origin := f.origin, channel := f.channel, state := f.state, dueKind := f.dueKind, earlyMs := f.earlyMs,
    lateMs := f.lateMs, grade := f.grade, predecessor := f.predecessor, status := st, verdict := none,
    dates := none, armingDate := none, snapshot := none, matched := none }

/-- An accepted entry takes its first status from its predecessor (R132). -/
def placeEntry (img : Image) (f : LoadFields) (c : Checker) : Checker :=
  let waiting := putEntry f.slot (some (loadedEntry f .waiting)) c
  let void := putEntry f.slot (some (loadedEntry f .void)) c
  let pending (base : Option Date) : Checker :=
    match dueDate f.dueKind base with
    | some due => makePending img f.slot (loadedEntry f .pending) due c
    | none => void
  match f.predecessor with
  | none => pending none
  | some p =>
    match c.slots[p] with
    | some e =>
      match e.status with
      | .waiting | .pending | .armed => waiting
      | .satisfied => pending (e.matched.map (·.date))
      | .missed | .unobservable | .cleared | .void => void
    | none => void

/-- An entry without its link, if it names the slot (R133). -/
def unlink (slot : Fin 256) (e : CheckEntry) : CheckEntry :=
  if e.predecessor = some slot then { e with predecessor := none } else e

/-- CANCEL ENTRY on a slot that is not EMPTY (R144, steps 1 to 4). -/
def cancelSlot (slot : Fin 256) (c : Checker) : Checker :=
  let c := { c with deadlines := removeDeadline slot c.deadlines }
  let c := voidSuccessors slot c
  let c := { c with slots := c.slots.map (Option.map (unlink slot)) }
  putEntry slot none c

/-- The slots that are not EMPTY (R153). -/
def slotsInUse (c : Checker) : Nat := (c.slots.toList.filter Option.isSome).length

end Sys2Proof.Machine
end

