-- ==== Sys2Proof/Machine/Checks.lean ====
section
/-! DEFINITION. The meanings of the timetable checker's deadline commands: OPEN_FIRE, MISS_FIRE. -/

namespace Sys2Proof.Machine

/-- The head of the deadline list is due and of that kind, in RUN (R137). -/
def fireDue (kind : DeadlineKind) (s : State) : Bool :=
  match dueDeadline s with
  | some d => inRun s && d.kind == kind
  | none => false

/-- OPEN_FIRE (R137, R138): the head, an OPEN item, fires, and the run goes on until the head is not due. -/
def execOpenFire (s : State) : Host.Outcome State Fault Refusal :=
  .next (if fireDue .opening s then runDeadlines s else s)

/-- MISS_FIRE (R137, R139): the head, a MISS item, fires, and the run goes on until the head is not due. -/
def execMissFire (s : State) : Host.Outcome State Fault Refusal :=
  .next (if fireDue .miss s then runDeadlines s else s)

end Sys2Proof.Machine
end

