-- ==== Sys2Proof/Machine/ClockOps.lean ====
section
/-! DEFINITION. The clock-line driver (chapter 10): suspension, the decision of R176, pulses and their proving. -/

namespace Sys2Proof.Machine

/-- A line's state under a suspending cause, or under none (R173). -/
def suspendLine (cause : Bool) (l : ClockLine) : ClockLine :=
  match l.state, cause with
  | .active, true => { l with state := .suspended }
  | .suspended, false => { l with state := .active }
  | _, _ => l

/-- Every line brought to the suspending causes that hold now (R173). -/
def refreshSuspension (s : State) : State :=
  { s with clocks := s.clocks.map (suspendLine (suspendingCause s.agreement.timeState s.supply)) }

/-- A pulse started on the line's next polarity (R177). -/
def startPulse (now : Elapsed) (l : ClockLine) : ClockLine :=
  { l with
    pulse := some { start := now, polarity := l.nextPolarity, seenOn := false }
    lastStart := some now
    driveA := l.nextPolarity == .a
    driveB := l.nextPolarity == .b }

/-- Whether R176 starts a pulse on a line now; outside RUN none is started (R184). -/
def pulseDue (s : State) (line : Fin 4) : Bool :=
  match s.port.image.lines[line] with
  | some c => inRun s && pulseCalled s.time.elapsed s.time.date.us c s.clocks[line]
  | none => false

/-- A line after the decision of R176. -/
def decidedLine (s : State) (line : Fin 4) : ClockLine :=
  if pulseDue s line then startPulse s.time.elapsed s.clocks[line] else s.clocks[line]

/-- The decision of R176 applied to one line. -/
def decideLine (line : Fin 4) (s : State) : State :=
  { s with clocks := s.clocks.set line (decidedLine s line) }

/-- The decision of R176 applied to every line. -/
def decideLines (s : State) : State := { s with clocks := Vector.ofFn fun line => decidedLine s line }

/-- The other polarity (R179). -/
def otherPolarity : Polarity → Polarity
  | .a => .b
  | .b => .a

/-- The line at the end of a proven pulse (R179). -/
def provenPulse (steps : Nat) (l : ClockLine) : ClockLine :=
  { l with
    dial := l.dial.map fun p => (p + 1) % steps
    nextPolarity := otherPolarity l.nextPolarity
    unproven := 0 }

/-- The line at the end of an unproven pulse (R180). -/
def unprovenPulse (l : ClockLine) : ClockLine :=
  let n := saturatingAdd 3 l.unproven 1
  { l with unproven := n, state := if n = 3 then .fault else l.state }

/-- The pulse removed and the drive terminals inactive (R177). -/
def releaseDrive (l : ClockLine) : ClockLine := { l with pulse := none, driveA := false, driveB := false }

/-- A pulse is proven when its proving terminal was sampled ON in its second half; the level standing at its end was
sampled then (R178). -/
def pulseProven (s : State) (c : ClockConfig) (p : Pulse) : Bool := p.seenOn || s.pins.levels[c.proving]

/-- The pulse of a line ends (R177 to R180). -/
def endPulse (line : Fin 4) (c : ClockConfig) (p : Pulse) (s : State) : State :=
  let l := releaseDrive s.clocks[line]
  if pulseProven s c p then { s with clocks := s.clocks.set line (provenPulse (dialSteps c) l) }
  else
    let s' := { s with clocks := s.clocks.set line (unprovenPulse l) }
    if (unprovenPulse l).unproven = 3 then raiseUrgentNow .clockLineFault s' else s'

/-- The level at a proving terminal changes while its line has a pulse in flight: a sample of the second half that
shows ON is noted. The old level was sampled up to the microsecond before (R178). -/
def noteProving (now : Elapsed) (terminal : Fin 40) (old new : Bool) (c : Option ClockConfig) (l : ClockLine) :
    ClockLine :=
  match c, l.pulse with
  | some c, some p =>
    let into := elapsedSince now p.start
    let half := c.widthMs * 500
    if c.proving = terminal then
      { l with pulse := some { p with
          seenOn := p.seenOn || (new && decide (half ≤ into)) || (old && decide (half < into)) } }
    else l
  | _, _ => l

/-- The level at a terminal changes from `old` to `new`, as the clock lines see it. -/
def noteProvingLevel (terminal : Fin 40) (old new : Bool) (s : State) : State :=
  { s with clocks := Vector.ofFn fun line =>
      noteProving s.time.elapsed terminal old new s.port.image.lines[line] s.clocks[line] }

/-- A dial set (R182): the state a line takes. -/
def dialState (cause : Bool) : ClockState → ClockState
  | .unset | .fault => if cause then .suspended else .active
  | st => st

/-- SET DIAL on a line record (R182). -/
def placeDial (cause : Bool) (position : Nat) (l : ClockLine) : ClockLine :=
  { l with state := dialState cause l.state, dial := some position, nextPolarity := .a, unproven := 0 }

/-- A line record after RESTART (R183). -/
def clockAfterRestart (l : ClockLine) : ClockLine :=
  { l with state := if l.state = .active then .suspended else l.state }

end Sys2Proof.Machine
end

