-- ==== Sys2Proof/Machine/Clocks.lean ====
section
/-! DEFINITION. The meanings of the clock-line driver's commands: SUPPLY_CHANGE, PULSE_START, PULSE_END. -/

namespace Sys2Proof.Machine

/-- The level of the supply-status input. -/
def putSupply (v : Supply) (s : State) : State := { s with pins := { s.pins with supply := v } }

/-- The supply condition takes the sampled level, and the lines are suspended or resumed and decide (R172, R173). -/
def takeSupply (v : Supply) (s : State) : State := decideLines (refreshSuspension { s with supply := v })

/-- SUPPLY_CHANGE (R172): the input is sampled from the end of qualification onward. DESIGN CHOICE (assumption log 13,
unsafe): each SUPPLY_CHANGE is a sample of its own, also where two come at one elapsed value, of which a station that
samples once a microsecond sees one. -/
def execSupplyChange (v : Supply) (s : State) : Host.Outcome State Fault Refusal :=
  .next (if s.port.station = .notQualified then putSupply v s else takeSupply v (putSupply v s))

/-- PULSE_START (R176, R177). -/
def execPulseStart (line : Fin 4) (s : State) : Host.Outcome State Fault Refusal := .next (decideLine line s)

/-- The pulse of a line that has run its width, with the line's configuration (R177). -/
def endedPulse (s : State) (line : Fin 4) : Option (ClockConfig × Pulse) :=
  match s.port.image.lines[line], s.clocks[line].pulse with
  | some c, some p => if reached s.time.elapsed (pulseEndPoint c p) then some (c, p) else none
  | _, _ => none

/-- PULSE_END (R177 to R180), and the decision of R176 with the new dial position. -/
def execPulseEnd (line : Fin 4) (s : State) : Host.Outcome State Fault Refusal :=
  .next (match endedPulse s line with
    | some (c, p) => decideLine line (endPulse line c p s)
    | none => s)

end Sys2Proof.Machine
end

