-- ==== Sys2Proof/Machine/AgreementOps.lean ====
section
/-! DEFINITION. The time base's advance and discipline computation (chapter 1), and what the agreement controller
makes of an offset (chapter 3). -/

namespace Sys2Proof.Machine

/-! ## Advance (sections 1.2 and 1.3) -/

/-- The correction share of microsecond `i` of a correction second with total K (R8). -/
def correctionShare (k : Int) (i : Nat) : Int :=
  if (i - 1) * k.natAbs / 1000000 < i * k.natAbs / 1000000 then (if 0 < k then 1 else -1) else 0

/-- A new correction second, with index 1 and the total K = F + 64·s (R8). -/
def newCorrection (trim slew : Int) : CorrectionSecond := { total := trim + 64 * slew, index := 1 }

/-- The share of the coming oscillator microsecond. -/
def comingShare (t : TimeBase) : Int :=
  match t.correction with
  | some c => correctionShare c.total c.index
  | none => 0

/-- The sixty-fourths of centre time's fraction after the advance, before the carries (R4). -/
def advancedFraction (t : TimeBase) : Nat := ((t.fraction : Int) + 64 + comingShare t).toNat

/-- The microseconds of day after the advance, before the carry into the day (R5). -/
def advancedUs (t : TimeBase) : Nat := t.date.us + advancedFraction t / 64

/-- A date with its microseconds of day carried into the day number, and the day number wrapped (R5). -/
def carryDay (day us : Nat) : Date :=
  if dayLength ≤ us then { day := (day + 1) % 65536, us := us - dayLength } else { day := day, us := us }

/-- The advance reaches or passes a multiple of `span` microseconds (R6, R174). -/
def advancePasses (span : Nat) (t : TimeBase) : Bool := decide (t.date.us / span < advancedUs t / span)

/-- The second mark that the advance reaches, if it does: its second number from the value after the advance (R6). -/
def markReached (t : TimeBase) : Option Nat :=
  if advancePasses 1000000 t then some ((carryDay t.date.day (advancedUs t)).us / 1000000) else t.markDue

/-- Whether the advance reaches a step boundary of a clock line (R174). -/
def boundaryReached (lines : Vector (Option ClockConfig) 4) (t : TimeBase) (line : Fin 4) : Bool :=
  match lines[line] with
  | some c => t.boundaryDue[line] || advancePasses (c.stepSeconds * 1000000) t
  | none => t.boundaryDue[line]

/-- Centre time advances by one oscillator microsecond (R4 to R6). -/
def advanceCentreTime (lines : Vector (Option ClockConfig) 4) (t : TimeBase) : TimeBase :=
  { t with
    date := carryDay t.date.day (advancedUs t)
    fraction := advancedFraction t % 64
    correction := t.correction.map fun c => { c with index := c.index + 1 }
    markDue := markReached t
    boundaryDue := Vector.ofFn (boundaryReached lines t) }

/-- One oscillator microsecond passes (R2, R4): the elapsed count gains one, and from the end of qualification on
centre time advances. -/
def advanceTimeBase (lines : Vector (Option ClockConfig) 4) (t : TimeBase) : TimeBase :=
  let t := if t.qualified then advanceCentreTime lines t else t
  { t with elapsed := t.elapsed + 1 }

/-! ## The discipline computation (section 1.4) -/

/-- The outcome handed back to the agreement controller (R12); `slew good` says whether |d| is 50 or less. -/
inductive Outcome where
  | deadBand
  | slew (good : Bool)
  | outlier
  | step
  deriving DecidableEq, Repr

/-- The trim clamped to its limits (R15). -/
def clampTrim (f : Int) : Int := max (-12800) (min 12800 f)

/-- An offset applied as a slew (R15). -/
def slewBy (d : Int) (t : TimeBase) : TimeBase :=
  let f := clampTrim (t.trim + 8 * d)
  { t with slew := d, trim := f, correction := some (newCorrection f d), outliers := [] }

/-- Centre time steps by an offset (R18). -/
def stepBy (d : Int) (t : TimeBase) : TimeBase :=
  { t with
    date := dateAdd t.date d
    fraction := 0
    slew := 0
    correction := some (newCorrection t.trim 0)
    epoch := t.epoch + 1
    outliers := [] }

/-- An outlier against the history (R16). -/
def meetOutlier (d : Int) (t : TimeBase) : Outcome × TimeBase :=
  match t.outliers with
  | [] => (.outlier, { t with outliers := [d] })
  | first :: rest =>
    if (d - first).natAbs ≤ 500 then
      if rest.isEmpty then (.outlier, { t with outliers := [first, d] }) else (.step, stepBy d t)
    else (.outlier, { t with outliers := [d] })

/-- The discipline computation on the time base (R12, R14 to R18). -/
def disciplineTime (d : Int) (ts : TimeState) (t : TimeBase) : Outcome × TimeBase :=
  if d.natAbs ≤ 1 then (.deadBand, { t with outliers := [] })
  else if d.natAbs ≤ 500 then (.slew (decide (d.natAbs ≤ 50)), slewBy d t)
  else if settledTimeState ts then meetOutlier d t
  else (.step, stepBy d t)

/-- What a step offers and raises (R19): the TIME STEP marker, and TIME-STEPPED when the step came from a settled
time state. -/
def announceStep (old : Date) (ts : TimeState) (s : State) : State :=
  let s := offerRecord { date := s.time.date, epoch := s.time.epoch, timeState := ts } (.timeStep old s.time.date) s
  if settledTimeState ts then raiseUrgent .timeStepped { date := s.time.date, epoch := s.time.epoch } s else s

/-- An offset carried through the discipline computation with the station's time state (R11 to R19). -/
def discipline (d : Int) (s : State) : Outcome × State :=
  let ts := s.agreement.timeState
  let r := disciplineTime d ts s.time
  let s' := { s with time := r.2 }
  (r.1, if r.1 = .step then announceStep s.time.date ts s' else s')

/-! ## What the agreement controller makes of an outcome (sections 3.2 and 3.4) -/

/-- The two kinds of source (R50). -/
inductive SourceKind where
  | line
  | reference
  deriving DecidableEq, Repr

/-- A good second (R12). -/
def goodOutcome : Outcome → Bool
  | .deadBand => true
  | .slew good => good
  | .outlier | .step => false

/-- An accepted offset (R12). -/
def acceptedOutcome : Outcome → Bool
  | .outlier => false
  | .deadBand | .slew _ | .step => true

/-- One good-second count after an outcome of its own kind (R50). -/
def countOwnKind (o : Outcome) (n : Nat) : Nat := if goodOutcome o then saturatingAdd 255 n 1 else 0

/-- Both good-second counts after an outcome (R50). -/
def countOutcome (kind : SourceKind) (o : Outcome) (a : Agreement) : Agreement :=
  match o, kind with
  | .step, _ => { a with lineGood := 0, referenceGood := 0 }
  | _, .line => { a with lineGood := countOwnKind o a.lineGood }
  | _, .reference => { a with referenceGood := countOwnKind o a.referenceGood }

/-- The good-second count of a kind. -/
def goodCount (kind : SourceKind) (a : Agreement) : Nat :=
  match kind with
  | .line => a.lineGood
  | .reference => a.referenceGood

/-- The first accepted offset in SEARCHING, or in SELF-TIMED, moves the station to SETTLING with both counts 0
(R56, R59); from SELF-TIMED the silence timer takes this instant (R59). -/
def enterSettling (now : Elapsed) (a : Agreement) : Agreement :=
  if a.timeState = .selfTimed then
    { a with timeState := .acquiring, phase := some .settling, grade := 15, lineGood := 0, referenceGood := 0,
             silenceTimer := some now }
  else if a.timeState = .acquiring ∧ a.phase = some .searching then
    { a with phase := some .settling, lineGood := 0, referenceGood := 0 }
  else a

/-- The station becomes AGREED on a source of that grade (R57, R62). -/
def becomeAgreed (grade : Nat) (a : Agreement) : Agreement :=
  { a with timeState := .agreed, phase := none, grade := agreedGrade grade, withoutSource := 0, holdover := none,
           silenceTimer := none }

/-- The station becomes REFERENCED (R57, R63). -/
def becomeReferenced (a : Agreement) : Agreement :=
  { a with timeState := .referenced, phase := none, grade := 1, withoutSource := 0, silenceTimer := none }

/-- The change of time state and grade that an accepted outcome calls for, its counts already made (R56 to R63). -/
def moveTimeState (kind : SourceKind) (grade : Nat) (o : Outcome) (a : Agreement) : Agreement :=
  let fourth := goodOutcome o && decide (goodCount kind a = 4)
  match a.timeState, kind with
  | .acquiring, .line => if fourth then becomeAgreed grade a else a
  | .acquiring, .reference => if fourth then becomeReferenced a else a
  | .agreed, .line => { a with grade := agreedGrade grade }
  | .agreed, .reference => if fourth then becomeReferenced a else { a with grade := agreedGrade grade }
  | .holdover, _ => becomeAgreed grade a
  | .referenced, _ | .selfTimed, _ | .notStarted, _ => a

/-- An outcome handed back to the agreement controller, from a source of that kind and grade (R13, R50, R54). -/
def takeOutcome (now : Elapsed) (kind : SourceKind) (grade : Nat) (o : Outcome) (a : Agreement) : Agreement :=
  if acceptedOutcome o then
    moveTimeState kind grade o
      { countOutcome kind o (enterSettling now a) with sourceGrade := some grade, acceptedThisSecond := true }
  else countOutcome kind o a

/-- What a change of centre time or of time state brings about at once: the due items of the deadline list fire
(R137, R140, R141), and the clock lines are suspended or resumed and decide (R173, R176, R181). DESIGN CHOICE
(assumption log 9, unsafe): the suspension comes before the decision. For an offset that steps centre time from
SELF-TIMED, R173 also lets the pulse that the new target calls for start first; in the model no pulse starts. -/
def followTime (s : State) : State := decideLines (refreshSuspension (runDeadlines s))

/-- An offset from a source given to the discipline computation, its outcome taken, and what follows (R54, R66). DEDUCED
(assumption log 8): the outcome moves the time state before the items that a step made due fire (R20, R137), so a step
from SELF-TIMED, which moves the station to ACQUIRING (R59), leaves them waiting for the end of the pause (R141). -/
def giveOffset (kind : SourceKind) (grade : Nat) (d : Int) (s : State) : State :=
  let r := discipline d s
  followTime { r.2 with agreement := takeOutcome s.time.elapsed kind grade r.1 r.2.agreement }

/-! ## Holdover, own seconds, silence (sections 3.2 and 3.4) -/

/-- Entry to HOLDOVER from a grade, at this instant; TIME-DEGRADED is raised (R60, R67). -/
def enterHoldover (grade : Nat) (s : State) : State :=
  raiseUrgentNow .timeDegraded
    { s with agreement :=
      { s.agreement with
        timeState := .holdover
        grade := holdoverGrade grade 0
        withoutSource := 0
        holdover := some { grade := grade, elapsed := s.time.elapsed } } }

/-- The seconds-without-source count that the close of an own second gives (R49). -/
def closedCount (a : Agreement) : Nat :=
  if a.timeState = .agreed ∧ a.acceptedThisSecond = false then a.withoutSource + 1 else 0

/-- The own second closes at an own mark (R49, R60). -/
def closeSecond (s : State) : State :=
  let n := closedCount s.agreement
  let s' := { s with agreement := { s.agreement with withoutSource := n, acceptedThisSecond := false } }
  if 4 ≤ n then enterHoldover s.agreement.grade s' else s'

/-- A good TIME frame restarts the silence timer of a station in ACQUIRING (R53, R58). -/
def restartSilence (now : Elapsed) (a : Agreement) : Agreement :=
  if a.timeState = .acquiring then { a with silenceTimer := some now } else a

end Sys2Proof.Machine
end

