-- ==== Sys2Proof/Machine/Frames.lean ====
section
/-! DEFINITION. Frames on the dating line as bits (R195) and their check (R196). -/

namespace Sys2Proof.Machine

/-- The bits of a word, most significant first (R195). -/
def msbBits {n : Nat} (w : BitVec n) : List Bool :=
  (List.range n).map fun k => w.getLsbD (n - 1 - k)

/-- One bit into the check register (R196): the bit is summed with the register's highest bit, the register shifts
one place up, and when the sum is 1 the places x^12, x^5 and x^0 are added. -/
def crcStep (r : BitVec 16) (bit : Bool) : BitVec 16 :=
  if bit != r.msb then (r <<< 1) ^^^ 0x1021#16 else r <<< 1

/-- The check over header and body bits: preset to ones, no inversion (R196). -/
def crc16 (bits : List Bool) : BitVec 16 :=
  bits.foldl crcStep 0xFFFF#16

/-- The header: kind, rank, origin, each most significant bit first (R195). -/
def headerBits (kind : BitVec 2) (rank : BitVec 4) (origin : BitVec 6) : List Bool :=
  msbBits kind ++ msbBits rank ++ msbBits origin

/-- The 12-bit header value; the lower is the stronger (section 2.1). -/
def headerValue (kind rank origin : Nat) : Nat := kind * 1024 + rank * 64 + origin

def timeBodyBits (b : TimeBody) : List Bool :=
  msbBits b.day ++ msbBits b.us ++ msbBits b.epoch ++ msbBits b.timeState

def noticeBodyBits (b : NoticeBody) : List Bool :=
  msbBits b.channel ++ [b.newState] ++ msbBits b.seq ++ msbBits b.day ++ msbBits b.us ++ msbBits b.epoch
    ++ msbBits b.timeState

def presenceBodyBits (b : PresenceBody) : List Bool :=
  msbBits b.timeState ++ msbBits b.grade ++ msbBits b.epoch ++ msbBits b.lastSeq ++ msbBits b.standing

/-- Kind values of section 2.1: TIME 00, URGENT NOTICE 01, NOTICE 10, PRESENCE 11. -/
def noticeKind (urgent : Bool) : BitVec 2 := if urgent then 1#2 else 2#2

def timeFrameCheck (rank : BitVec 4) (origin : BitVec 6) (b : TimeBody) : BitVec 16 :=
  crc16 (headerBits 0#2 rank origin ++ timeBodyBits b)

def noticeFrameCheck (urgent : Bool) (rank : BitVec 4) (origin : BitVec 6) (b : NoticeBody) : BitVec 16 :=
  crc16 (headerBits (noticeKind urgent) rank origin ++ noticeBodyBits b)

def presenceFrameCheck (rank : BitVec 4) (origin : BitVec 6) (b : PresenceBody) : BitVec 16 :=
  crc16 (headerBits 3#2 rank origin ++ presenceBodyBits b)

/-- A frame whose check agrees with its header and body (R33, R196). -/
def timeFrameGood (f : TimeFrame) : Bool := f.check == timeFrameCheck f.rank f.origin f.body

def noticeFrameGood (f : NoticeFrame) : Bool := f.check == noticeFrameCheck f.urgent f.rank f.origin f.body

def presenceFrameGood (f : PresenceFrame) : Bool := f.check == presenceFrameCheck f.rank f.origin f.body

/-- A TIME frame with the check its sender computes. -/
def sealTime (rank : BitVec 4) (origin : BitVec 6) (b : TimeBody) : TimeFrame :=
  { rank := rank, origin := origin, body := b, check := timeFrameCheck rank origin b }

def sealNotice (urgent : Bool) (rank : BitVec 4) (origin : BitVec 6) (b : NoticeBody) : NoticeFrame :=
  { urgent := urgent, rank := rank, origin := origin, body := b, check := noticeFrameCheck urgent rank origin b }

def sealPresence (rank : BitVec 4) (origin : BitVec 6) (b : PresenceBody) : PresenceFrame :=
  { rank := rank, origin := origin, body := b, check := presenceFrameCheck rank origin b }

end Sys2Proof.Machine
end

