-- ==== Sys2Proof/Machine/LineOps.lean ====
section
/-! DEFINITION. The line controller (chapters 2 and 7): scores and standings, the transmit queue, the contest, the
heard table, the acceptance list, and what becomes of each received frame. -/

namespace Sys2Proof.Machine

/-! ## Codes on the line (R195) -/

def timeStateCode : TimeState → Nat
  | .notStarted => 0
  | .acquiring => 1
  | .selfTimed => 2
  | .agreed => 3
  | .holdover => 4
  | .referenced => 5

/-- A received time-state code; 6 and 7 are taken as ACQUIRING (R195). -/
def timeStateOfCode (c : BitVec 3) : TimeState :=
  match c.toNat with
  | 0 => .notStarted
  | 2 => .selfTimed
  | 3 => .agreed
  | 4 => .holdover
  | 5 => .referenced
  | _ => .acquiring

def standingCode : Standing → Nat
  | .full => 0
  | .quiet => 1
  | .withdrawn => 2

/-- A date as received. -/
def dateOfBits (day : BitVec 16) (us : BitVec 37) : Date := { day := day.toNat, us := us.toNat }

/-- A received µs of day that a date can have (R195). -/
def usInDay (us : BitVec 37) : Bool := decide (us.toNat < dayLength)

/-! ## Score and standing (sections 2.5 and 2.6) -/

/-- DROPPED-WITHDRAWN reported for every notice of the transmit queue, in queue order (R38). -/
def reportDropped (items : List TxItem) (s : State) : State :=
  items.foldl (fun s it =>
    match it.eventSeq with
    | some n => reportBroadcast .droppedWithdrawn n s
    | none => s) s

/-- Entry to WITHDRAWN at this frame end (R38). -/
def enterWithdrawn (s : State) : State :=
  let s := reportDropped s.line.txQueue s
  raiseUrgentNow .lineWithdrawn
    { s with line := { s.line with txQueue := [], standing := .withdrawn, goodRun := some 0 } }

/-- A new score of a station outside WITHDRAWN, and the standing that follows from it (R36). -/
def takeScore (score : Nat) (s : State) : State :=
  let s := { s with line := { s.line with score := score } }
  if 192 ≤ score then enterWithdrawn s
  else { s with line := { s.line with standing := standingOfScore score } }

/-- DUPLICATE-STATION (R34): raised; a station in FULL or QUIET sets its score to 192 and enters WITHDRAWN. DEDUCED
(assumption log 18): where the +8 of a collision has just withdrawn the station, and the remainder is then heard good
with the own origin at the same frame end, the station is WITHDRAWN already; the score of 192 to 199 stays, and
LINE-WITHDRAWN stands before DUPLICATE-STATION. -/
def duplicateStation (s : State) : State :=
  let s := raiseUrgentNow .duplicateStation s
  if s.line.standing = .withdrawn then s
  else enterWithdrawn { s with line := { s.line with score := 192, collisions := 0 } }

/-- The score after a change of R35, within 0 to 255. -/
def scoreUp (n score : Nat) : Nat := saturatingAdd 255 score n

/-- An own frame's outcome on the score and the collision count (R34, R35). -/
def scoreOwnFrame (how : FrameEnd) (s : State) : State :=
  let withdrawn := s.line.standing == .withdrawn
  match how with
  | .lost => s
  | .completed =>
    let s := { s with line := { s.line with collisions := 0 } }
    if withdrawn then s else takeScore (s.line.score - 1) s
  | .objected =>
    let s := { s with line := { s.line with collisions := 0 } }
    if withdrawn then s else takeScore (scoreUp 8 s.line.score) s
  | .collided =>
    if 3 ≤ s.line.collisions + 1 then duplicateStation { s with line := { s.line with collisions := 0 } }
    else
      let s := { s with line := { s.line with collisions := s.line.collisions + 1 } }
      if withdrawn then s else takeScore (scoreUp 8 s.line.score) s

/-- The good-frame run of a WITHDRAWN station after a frame that counts toward return: at 128 the station returns
(R38). -/
def runTowardReturn (s : State) : State :=
  let run := s.line.goodRun.getD 0 + 1
  if 128 ≤ run then { s with line := { s.line with goodRun := none, score := 0, standing := .full } }
  else { s with line := { s.line with goodRun := some run } }

/-- A good frame received, scored (R34, R35, R38). `own` says that it bears the station's own origin; `remainder`
that it is the remainder of a frame the station collided on. -/
def scoreGoodFrame (own remainder : Bool) (s : State) : State :=
  if own then
    let s := duplicateStation s
    { s with line := { s.line with goodRun := some 0 } }
  else if remainder then s
  else if s.line.standing = .withdrawn then runTowardReturn s
  else takeScore (s.line.score - 1) s

/-- A bad frame received, scored (R35, R38). -/
def scoreBadFrame (remainder : Bool) (s : State) : State :=
  if s.line.standing = .withdrawn then { s with line := { s.line with goodRun := some 0 } }
  else if remainder then s
  else takeScore (scoreUp 1 s.line.score) s

/-! ## Transmit queue (section 2.7) -/

/-- The kind value of an item's frame (section 2.1). -/
def itemKind : TxBody → Nat
  | .notice urgent _ => if urgent then 1 else 2
  | .presence _ => 3

/-- The strength of an item: its header value, all items bearing one origin (R39). -/
def itemStrength (it : TxItem) : Nat := headerValue (itemKind it.body) it.rank 0

/-- An item inserted by header value, and after its equals (R39). -/
def insertItem (it : TxItem) : List TxItem → List TxItem
  | [] => [it]
  | e :: rest => if itemStrength it < itemStrength e then it :: e :: rest else e :: insertItem it rest

/-- The item joins the queue, with the next entry order (R39). -/
def joinQueue (it : TxItem) (l : LineController) : LineController :=
  { l with txQueue := insertItem { it with order := l.nextOrder } l.txQueue, nextOrder := l.nextOrder + 1 }

def isPresenceItem (it : TxItem) : Bool :=
  match it.body with
  | .presence _ => true
  | .notice _ _ => false

/-- The notice sequence of the next shared change (R40). -/
def nextOwnSeq (l : LineController) : NoticeSeq := l.ownSeq + 1

/-- What becomes of an offered notice (R40): the broadcast state to report, and whether it is queued. -/
def noticeAnswer (l : LineController) : Broadcast :=
  if l.standing = .withdrawn then .droppedWithdrawn
  else if l.txQueue.length < 16 then .queued
  else .droppedFull

/-- A notice offered into the transmit queue, and the answer reported into its record (R40, R43). -/
def offerNotice (urgent : Bool) (priority : Nat) (body : NoticeBody) (n : SeqNumber) (s : State) : State :=
  let answer := noticeAnswer s.line
  let it : TxItem :=
    { rank := priority, body := .notice urgent body, attempts := 0, eventSeq := some n, order := 0, refreshed := false }
  let s := if answer = .queued then { s with line := joinQueue it s.line } else s
  reportBroadcast answer n s

/-- The PRESENCE body formed from the values in force (R115). -/
def presenceBody (s : State) : PresenceBody :=
  { timeState := BitVec.ofNat 3 (timeStateCode s.agreement.timeState), grade := BitVec.ofNat 4 s.agreement.grade,
    epoch := s.time.epoch, lastSeq := s.line.ownSeq, standing := BitVec.ofNat 2 (standingCode s.line.standing) }

/-- The own frame is this queue item's. -/
def inFlight (l : LineController) (it : TxItem) : Bool :=
  match l.ownFrame with
  | some f => f.owner == .queueItem it.order
  | none => false

/-- The held PRESENCE item takes a new body (R41). -/
def refreshPresence (b : PresenceBody) (l : LineController) (it : TxItem) : TxItem :=
  if isPresenceItem it then
    { it with body := .presence b, attempts := 0, refreshed := it.refreshed || inFlight l it }
  else it

/-- A PRESENCE that falls due, at the transmit queue (R41). -/
def queuePresence (b : PresenceBody) (l : LineController) : LineController :=
  if l.standing = .withdrawn then l
  else if l.txQueue.any isPresenceItem then { l with txQueue := l.txQueue.map (refreshPresence b l) }
  else if l.txQueue.length < 16 then
    joinQueue { rank := 0, body := .presence b, attempts := 0, eventSeq := none, order := 0, refreshed := false } l
  else l

/-- The item after OBJECTED or COLLIDED, or its removal (R42): `none` when it is removed. -/
def itemAfterObjection (it : TxItem) : Option TxItem :=
  match it.body with
  | .notice _ _ => if it.attempts < 2 then some { it with attempts := it.attempts + 1 } else none
  | .presence _ => if it.refreshed then some { it with refreshed := false } else none

/-- The item after COMPLETED, or its removal (R42). -/
def itemAfterCompletion (it : TxItem) : Option TxItem :=
  match it.body with
  | .notice _ _ => none
  | .presence _ => if it.refreshed then some { it with refreshed := false } else none

/-- The item in flight after its frame's outcome (R42). -/
def itemAfter (how : FrameEnd) (it : TxItem) : Option TxItem :=
  match how with
  | .lost => some { it with refreshed := false }
  | .completed => itemAfterCompletion it
  | .objected | .collided => itemAfterObjection it

/-- The broadcast state that an outcome reports for an item (R42). -/
def outcomeReport (how : FrameEnd) (it : TxItem) : Option (SeqNumber × Broadcast) :=
  match it.eventSeq, how with
  | some n, .completed => some (n, .sent)
  | some n, .objected | some n, .collided => if it.attempts < 2 then none else some (n, .droppedObjected)
  | _, _ => none

/-- The transmit queue with the item of that entry order after its outcome (R42). -/
def queueAfter (how : FrameEnd) (order : Nat) (items : List TxItem) : List TxItem :=
  items.filterMap fun it => if it.order = order then itemAfter how it else some it

/-- The transmit queue acts on the outcome of its frame in flight (R42, R43). -/
def settleItem (how : FrameEnd) (order : Nat) (s : State) : State :=
  let found := s.line.txQueue.find? fun it => it.order == order
  let s := { s with line := { s.line with txQueue := queueAfter how order s.line.txQueue } }
  match found.bind (outcomeReport how) with
  | some r => reportBroadcast r.2 r.1 s
  | none => s

/-! ## Own frames (sections 2.2 and 2.3) -/

/-- The station number as an origin. -/
def ownOrigin (s : State) : BitVec 6 := BitVec.ofNat 6 s.port.image.station

/-- The frame of a transmit-queue item (R195, R196). -/
def itemFrame (origin : BitVec 6) (it : TxItem) : Frame :=
  match it.body with
  | .notice urgent b => .notice (sealNotice urgent (BitVec.ofNat 4 it.rank) origin b)
  | .presence b => .presence (sealPresence (BitVec.ofNat 4 it.rank) origin b)

/-- The ready frame may be begun (R30): idle line, outside the guard interval, a standing that sends, and no second
mark at which the station might yet begin a TIME start mark (R29). -/
def readyToBegin (s : State) : Bool :=
  inRun s && s.line.condition == .idle && s.line.ownFrame.isNone && !inGuardInterval s.time && s.time.markDue.isNone &&
    maySend s.line.standing

/-- The head of the transmit queue is begun, and is the frame in flight (R30). The date taken as it begins driving is
the capture of a TIME start mark that began in the same bit time and beats it (R26, R27). -/
def beginItem (it : TxItem) (s : State) : State :=
  { s with line := { s.line with
      condition := .frame
      leadIn := some { mark := some .short, start := s.time.elapsed, capture := some (stampNow s) }
      ownFrame := some { frame := itemFrame (ownOrigin s) it, owner := .queueItem it.order } } }

/-- The TIME frame of a contender: its grade in the header, its capture in the body (R28, R51). -/
def contestFrame (origin : BitVec 6) (grade : Nat) (c : Stamp) : TimeFrame :=
  sealTime (BitVec.ofNat 4 grade) origin
    { day := BitVec.ofNat 16 c.date.day, us := BitVec.ofNat 37 c.date.us, epoch := c.epoch,
      timeState := BitVec.ofNat 3 (timeStateCode c.timeState) }

/-- The station contends at its mark (R51). -/
def contends (s : State) : Bool :=
  inRun s && s.line.standing == .full && contendingTimeState s.agreement.timeState

/-- The capture of a TIME start mark that the station may still join: one that began 64 µs or less before (R28). DESIGN
CHOICE (assumption log 36, unsafe): a station that holds an own short frame, or has LOST it to a TIME start mark of the
same bit time, joins no mark: R27 has it receive as a receiver, where the table of R28 would have it join. A mark held
without a capture is not joined either (assumption log 10). -/
def joinCapture (s : State) : Option Stamp :=
  match s.line.condition, s.line.leadIn, s.line.ownFrame with
  | .frame, some li, none =>
    if li.mark = some .time ∧ elapsedSince s.time.elapsed li.start ≤ 64 then li.capture else none
  | _, _, _ => none

/-- The TIME frame sent on a start mark with that capture. -/
def sendTime (c : Stamp) (s : State) : State :=
  { s with line := { s.line with
      ownFrame := some { frame := .time (contestFrame (ownOrigin s) s.agreement.grade c), owner := .agreement } } }

/-- A contending station begins a TIME start mark on an idle line, joins one, or forgoes the contest (R28). -/
def contest (s : State) : State :=
  if s.line.condition = .idle ∧ s.line.ownFrame = none then
    sendTime (stampNow s)
      { s with line := { s.line with
          condition := .frame
          leadIn := some { mark := some .time, start := s.time.elapsed, capture := some (stampNow s) } } }
  else
    match joinCapture s with
    | some c => sendTime c s
    | none => s

/-! ## The line's condition (section 2.1) -/

/-- The end of a good frame, or of an own one: the gap begins (R24). -/
def gapBegins (l : LineController) : LineController :=
  { l with condition := .gap, leadIn := none, remainder := none, objecting := false }

/-- The end of a bad frame: the line is taken as busy until it was recessive for 8 bit times (R24); a FULL receiver
in RUN has objected to a well-formed one (R33). -/
def badFrameEnds (objects : Bool) (l : LineController) : LineController :=
  { l with condition := .awaitRecessive, leadIn := none, remainder := none, objecting := objects }

/-- A frame from the line can end now: one is being received, and the station is not driving its own (R24, R34). -/
def receiving (s : State) : Bool :=
  s.port.station != .notQualified && s.line.condition != .awaitRecessive && s.line.ownFrame.isNone

/-- The standing in force while the frame now ending was on the line: a collision on it has lowered the standing at its
end alone (R33, R37). -/
def standingOnFrame (l : LineController) : Standing := l.remainder.getD l.standing

/-- A bad frame ends (R25, R33, R35); in CONFIG the line is followed and nothing else is done (R46). -/
def endBadFrame (why : BadFrame) (s : State) : State :=
  let objects := inRun s && decide (why = .checkDisagrees) && standingOnFrame s.line == .full
  let remainder := s.line.remainder.isSome
  let s := { s with line := badFrameEnds objects s.line }
  if inRun s then scoreBadFrame remainder s else s

/-- A good frame ends and is scored (R33, R35); in CONFIG the line is followed and nothing else is done (R46). -/
def endGoodFrame (origin : BitVec 6) (s : State) : State :=
  let remainder := s.line.remainder.isSome
  let s := { s with line := gapBegins s.line }
  if inRun s then scoreGoodFrame (origin == ownOrigin s) remainder s else s

/-- The kind of a frame fits the start mark that its lead-in proved (R25). A frame without a lead-in, or with one that
beat the station's own short start mark, is taken as the command says (assumption log 14). -/
def kindFits (isTime : Bool) (l : LineController) : Bool :=
  match l.leadIn.bind (·.mark) with
  | some .time => isTime
  | some .short => !isTime
  | none => true

/-- A whole frame ends: malformed when its kind does not fit its start mark (R25), good when its check agrees, and bad
otherwise (R33). -/
def frameEnds (isTime checkAgrees : Bool) (good : State → State) (s : State) : State :=
  if receiving s then
    if kindFits isTime s.line then if checkAgrees then good s else endBadFrame .checkDisagrees s
    else endBadFrame .malformed s
  else s

/-! ## Own second marks (sections 2.3 and 3.2) -/

/-- The PRESENCE due point set at an even-numbered own mark in RUN (R114). -/
def setPresenceDue (second : Nat) (s : State) : State :=
  if second % 2 = 0 then { s with line := { s.line with presenceDue := some (s.time.elapsed + usSpan 50000) } } else s

/-- What the blocks of a station in RUN do at an own mark: the own second is closed, then the contention is decided
(R49, R51), and the PRESENCE due point set (R114). -/
def markInRun (second : Nat) (s : State) : State :=
  let s := closeSecond s
  let s := if contends s then contest s else s
  setPresenceDue second s

/-- The mark is taken. -/
def clearMark (s : State) : State := { s with time := { s.time with markDue := none } }

/-- The second mark that the last advance reached is given, where it still waits (R6). -/
def takeMark (s : State) : State :=
  match s.time.markDue with
  | some second => if inRun s then markInRun second (clearMark s) else clearMark s
  | none => s

/-- An offset that is to step centre time finds no second mark waiting: one that the advance has reached is given
first, at the old time and in the old epoch (R20). -/
def markBeforeStep (d : Int) (s : State) : State :=
  if (disciplineTime d s.agreement.timeState s.time).1 = .step then takeMark s else s

/-! ## Heard table and acceptance list (sections 7.3 to 7.6) -/

/-- The place of a peer origin in the heard table: origins 1 to 62 other than the station's own (R116). -/
def peerOf (origin : BitVec 6) (s : State) : Option (Fin 62) :=
  if h : 1 ≤ origin.toNat ∧ origin.toNat ≤ 62 then
    if origin = ownOrigin s then none else some ⟨origin.toNat - 1, by omega⟩
  else none

/-- A heard entry after a good frame from its origin (R117). -/
def hearFrame (now : Elapsed) (limitSeconds : Nat) (e : HeardEntry) : HeardEntry :=
  { e with presence := .present, lastGood := some now, silenceExpiry := some (now + usSpan (limitSeconds * 1000000)) }

/-- An item joins the recent notice list, which holds eight (R120). -/
def joinRecent (r : RecentNotice) (l : List RecentNotice) : List RecentNotice := (r :: l).take 8

/-- The notice is a repeat (R120). -/
def isRepeat (r : RecentNotice) (e : HeardEntry) : Bool := e.lastSeq.isSome && e.recent.contains r

/-- How many notices a new notice shows as missed (R120). -/
def missedBefore (n : NoticeSeq) (e : HeardEntry) : Nat :=
  match e.lastSeq with
  | some l => if (n - l - 1).toNat < 128 then (n - l - 1).toNat else 0
  | none => 0

/-- A heard entry after a new notice (R120). -/
def hearNotice (r : RecentNotice) (e : HeardEntry) : HeardEntry :=
  { e with
    missed := saturatingAdd 65535 e.missed (missedBefore r.seq e)
    lastSeq := some r.seq
    recent := joinRecent r e.recent }

/-- A heard entry after a PRESENCE (R121, R122). -/
def hearPresence (b : PresenceBody) (e : HeardEntry) : HeardEntry :=
  let announced : LastPresence :=
    { timeState := timeStateOfCode b.timeState, grade := b.grade, epoch := b.epoch, standing := b.standing }
  let e := { e with lastPresence := some announced }
  match e.lastSeq with
  | none => { e with lastSeq := some b.lastSeq }
  | some l =>
    let k := (b.lastSeq - l).toNat
    if 1 ≤ k ∧ k ≤ 127 then { e with missed := saturatingAdd 65535 e.missed k, lastSeq := some b.lastSeq } else e

/-- A heard entry changed. -/
def setHeard (k : Fin 62) (e : HeardEntry) (s : State) : State :=
  { s with line := { s.line with heard := s.line.heard.set k e } }

/-- The heard entry of a peer brought up to date at the frame end (R117). -/
def steerHeard (k : Fin 62) (s : State) : State :=
  setHeard k (hearFrame s.time.elapsed s.port.image.silenceLimit s.line.heard[k]) s

/-- An acceptance entry matches an origin and a channel (R125). -/
def acceptMatches (origin channel : BitVec 6) (a : AcceptEntry) : Bool :=
  (origin &&& a.originMask) == (a.originValue &&& a.originMask) &&
    (channel &&& a.channelMask) == (a.channelValue &&& a.channelMask)

/-- The acceptance entry of that number matches. -/
def entryMatches (origin channel : BitVec 6) (l : Vector (Option AcceptEntry) 16) (i : Fin 16) : Bool :=
  match l[i] with
  | some a => acceptMatches origin channel a
  | none => false

/-- The first entry that matches decides (R126). -/
def decidingEntry (origin channel : BitVec 6) (l : Vector (Option AcceptEntry) 16) : Option (Fin 16) :=
  (List.finRange 16).find? (entryMatches origin channel l)

/-- The action of an acceptance entry is OFFER. -/
def entryOffers (l : Vector (Option AcceptEntry) 16) (i : Fin 16) : Bool :=
  match l[i] with
  | some a => a.offer
  | none => false

/-- The observation a received notice becomes (R128). -/
def noticeObservation (f : NoticeFrame) : Observation :=
  { own := false, origin := f.origin.toNat, channel := f.body.channel.toNat, state := f.body.newState,
    date := dateOfBits f.body.day f.body.us, epoch := f.body.epoch, timeState := timeStateOfCode f.body.timeState }

/-- A new notice decided by the acceptance list, and offered as an observation (R126, R128). -/
def acceptNotice (f : NoticeFrame) (s : State) : State :=
  match decidingEntry f.origin f.body.channel s.port.image.acceptance with
  | some i =>
    let s := { s with line := { s.line with hits := s.line.hits.set i (saturatingAdd 65535 s.line.hits[i] 1) } }
    if entryOffers s.port.image.acceptance i then takeObservation (noticeObservation f) s else s
  | none => s

/-- The item a notice is in a recent notice list. -/
def recentOf (f : NoticeFrame) : RecentNotice :=
  { seq := f.body.seq, date := dateOfBits f.body.day f.body.us, epoch := f.body.epoch }

/-- A notice from a peer, steered (R116, R117, R120, R195). -/
def steerNotice (k : Fin 62) (f : NoticeFrame) (s : State) : State :=
  let s := steerHeard k s
  if isRepeat (recentOf f) s.line.heard[k] then s
  else
    let s := setHeard k (hearNotice (recentOf f) s.line.heard[k]) s
    if usInDay f.body.us then acceptNotice f s else s

/-- A PRESENCE from a peer, steered (R116, R117, R121, R122). -/
def steerPresence (k : Fin 62) (f : PresenceFrame) (s : State) : State :=
  let s := steerHeard k s
  setHeard k (hearPresence f.body s.line.heard[k]) s

/-! ## TIME frames heard (section 3.3) -/

/-- A TIME frame whose values a station sends (R195): rank 1 to 14 and a µs of day within the day. -/
def timeFrameUsable (f : TimeFrame) : Bool :=
  decide (1 ≤ f.rank.toNat) && decide (f.rank.toNat ≤ 14) && usInDay f.body.us

/-- The time states that take a line source (R53). -/
def takesLineSource : TimeState → Bool
  | .acquiring | .selfTimed | .agreed | .holdover => true
  | .notStarted | .referenced => false

/-- The frame is taken as a line source with that capture (R53, R195). -/
def lineSource (f : TimeFrame) (c : Stamp) (s : State) : Bool :=
  takesLineSource s.agreement.timeState && f.origin != ownOrigin s && decide (f.rank.toNat ≤ s.agreement.grade) &&
    !referenceRunning s.agreement && s.time.epoch == c.epoch && timeFrameUsable f

/-- The offset d = T − C + L (R54). -/
def lineOffset (f : TimeFrame) (c : Stamp) (s : State) : Int :=
  dateDiff (dateOfBits f.body.day f.body.us) c.date + (s.port.image.lineDelay : Int)

/-- A REFERENCED station measures another winner's frame (R55). -/
def measuresDisagreement (f : TimeFrame) (s : State) : Bool :=
  s.agreement.timeState == .referenced && f.origin != ownOrigin s && timeFrameUsable f

/-- A heard good TIME frame at the agreement controller, with the capture of its start mark (R53 to R55, R58). DEDUCED
from R53 and R195 (assumption log 27): a frame whose µs of day lies beyond the day is a good TIME frame declined, and
restarts the silence timer as every such frame does, though R195 steers it for the heard table alone. -/
def hearTimeFrame (f : TimeFrame) (capture : Option Stamp) (s : State) : State :=
  let s := { s with agreement := restartSilence s.time.elapsed s.agreement }
  match capture with
  | some c =>
    if lineSource f c s then giveOffset .line f.rank.toNat (lineOffset f c s) (markBeforeStep (lineOffset f c s) s)
    else if measuresDisagreement f s ∧ 1000 < (lineOffset f c s).natAbs then raiseUrgentNow .referenceDisagree s
    else s
  | none => s

/-- A frame of origin 0 or 63 goes to no block (R116, R195). -/
def handedOn (origin : BitVec 6) : Bool := decide (1 ≤ origin.toNat) && decide (origin.toNat ≤ 62)

end Sys2Proof.Machine
end

