-- ==== Sys2Proof/Machine/DatingLine.lean ====
section
/-! DEFINITION. The meanings of the dating line's commands: PRESENCE_DUE, BEGIN_READY_FRAME, FRAME_OUTCOME,
RECEIVE_TIME_FRAME, RECEIVE_NOTICE, RECEIVE_PRESENCE, RECEIVE_BAD_FRAME, SILENCE_EXPIRY, DOMINANT_LEAD_IN, LINE_IDLE. -/

namespace Sys2Proof.Machine

/-- The elapsed count has reached the PRESENCE due point (R114). -/
def presenceIsDue (s : State) : Bool :=
  match s.line.presenceDue with
  | some t => inRun s && reached s.time.elapsed t
  | none => false

/-- A PRESENCE falls due: the due point is removed and the body formed from the values in force is queued, refreshes
the held one, or is not queued (R41, R114, R115). -/
def fallPresence (s : State) : State :=
  { s with line := queuePresence (presenceBody s) { s.line with presenceDue := none } }

/-- PRESENCE_DUE. -/
def execPresenceDue (s : State) : Host.Outcome State Fault Refusal :=
  .next (if presenceIsDue s then fallPresence s else s)

/-- BEGIN_READY_FRAME (R30): the head of the transmit queue is begun. -/
def execBeginReadyFrame (s : State) : Host.Outcome State Fault Refusal :=
  .next (match s.line.txQueue with
    | it :: _ => if readyToBegin s then beginItem it s else s
    | [] => s)

/-- The lead-in of the frame that beat an own one: all who contend send a TIME start mark, but what beat a short one may
have been either (R27). -/
def leadInOfWinner (l : LeadIn) : LeadIn := if l.mark = some .short then { l with mark := none } else l

/-- The lead-in after an own frame: that of the frame now heard to its end, or none (R27, R32). -/
def leadInAfterOwn (how : FrameEnd) (l : Option LeadIn) : Option LeadIn :=
  match how with
  | .lost => l.map leadInOfWinner
  | .collided => l
  | .objected | .completed => none

/-- The line after an own frame: the gap begins, or the frame that beat it is heard to its end with its capture
(R24, R27, R32). -/
def lineAfterOwn (how : FrameEnd) (scored : Bool) (l : LineController) : LineController :=
  { l with
    ownFrame := none
    condition := if l.condition = .frame then .gap else l.condition
    leadIn := leadInAfterOwn how l.leadIn
    remainder := if scored && decide (how = .collided) then some l.standing else none
    objecting := false }

/-- The transmit queue's part of an outcome (R31): a TIME frame is the agreement controller's, which makes nothing of
it (R52). -/
def ownerTakes (how : FrameEnd) (o : FrameOwner) (s : State) : State :=
  match o with
  | .queueItem order => settleItem how order s
  | .agreement | .noBlock => s

/-- An own frame ends (R31): its owner takes the outcome, and then it is scored (R35, R42). A frame that RESTART let
run on is neither scored nor reported (R45). -/
def endOwnFrame (how : FrameEnd) (f : OwnFrame) (s : State) : State :=
  let counts := inRun s && f.owner != .noBlock
  let s := { s with line := lineAfterOwn how counts s.line }
  if counts then scoreOwnFrame how (ownerTakes how f.owner s) else s

/-- FRAME_OUTCOME (R31, R32, R34, R35, R42). -/
def execFrameOutcome (how : FrameEnd) (s : State) : Host.Outcome State Fault Refusal :=
  .next (match s.line.ownFrame with
    | some f => endOwnFrame how f s
    | none => s)

/-- A good TIME frame ends (R33): scored, its origin's heard entry brought up to date (R116, R117), then judged by the
agreement controller with the capture of its start mark (R53 to R55). -/
def endTimeFrame (f : TimeFrame) (s : State) : State :=
  let capture := s.line.leadIn.bind (·.capture)
  let s := endGoodFrame f.origin s
  if inRun s && handedOn f.origin then
    let s := match peerOf f.origin s with
      | some k => steerHeard k s
      | none => s
    hearTimeFrame f capture s
  else s

/-- RECEIVE_TIME_FRAME (R25, R33). -/
def execReceiveTimeFrame (f : TimeFrame) (s : State) : Host.Outcome State Fault Refusal :=
  .next (frameEnds true (timeFrameGood f) (endTimeFrame f) s)

/-- A good notice ends (R33): scored, and steered when it is a peer's (R116). -/
def endNotice (f : NoticeFrame) (s : State) : State :=
  let s := endGoodFrame f.origin s
  match peerOf f.origin s with
  | some k => if inRun s then steerNotice k f s else s
  | none => s

/-- RECEIVE_NOTICE (R25, R33). -/
def execReceiveNotice (f : NoticeFrame) (s : State) : Host.Outcome State Fault Refusal :=
  .next (frameEnds false (noticeFrameGood f) (endNotice f) s)

/-- A good PRESENCE ends (R33): scored, and steered when it is a peer's (R116). -/
def endPresence (f : PresenceFrame) (s : State) : State :=
  let s := endGoodFrame f.origin s
  match peerOf f.origin s with
  | some k => if inRun s then steerPresence k f s else s
  | none => s

/-- RECEIVE_PRESENCE (R25, R33). -/
def execReceivePresence (f : PresenceFrame) (s : State) : Host.Outcome State Fault Refusal :=
  .next (frameEnds false (presenceFrameGood f) (endPresence f) s)

/-- RECEIVE_BAD_FRAME (R25, R33, R35). -/
def execReceiveBadFrame (why : BadFrame) (s : State) : Host.Outcome State Fault Refusal :=
  .next (if receiving s then endBadFrame why s else s)

/-- The elapsed count has reached the silence expiry of a PRESENT entry (R119). -/
def silenceDue (s : State) (peer : Fin 62) : Bool :=
  match s.line.heard[peer].silenceExpiry with
  | some t => inRun s && s.line.heard[peer].presence == .present && reached s.time.elapsed t
  | none => false

/-- The entry turns SILENT (R119). -/
def fallSilent (e : HeardEntry) : HeardEntry := { e with presence := .silent, silenceExpiry := none }

/-- SILENCE_EXPIRY. -/
def execSilenceExpiry (peer : Fin 62) (s : State) : Host.Outcome State Fault Refusal :=
  .next (if silenceDue s peer then setHeard peer (fallSilent s.line.heard[peer]) s else s)

/-- The capture of a lead-in that follows idle: taken in RUN, and kept for a TIME start mark (R26, R46). -/
def captureAt (mark : StartMark) (s : State) : Option Stamp :=
  if inRun s ∧ mark = .time then some (stampNow s) else none

/-- A frame begins on the line (R24). -/
def frameBegins (mark : StartMark) (capture : Option Stamp) (s : State) : State :=
  { s with line := { s.line with
      condition := .frame
      leadIn := some { mark := some mark, start := s.time.elapsed, capture := capture }
      remainder := none
      objecting := false } }

/-- DOMINANT_LEAD_IN (R24, R26): after idle the line becomes busy and a capture is taken; in a gap a new frame has
begun; before a line taken as busy after a bad frame or START is idle, no frame begins for this station. -/
def execDominantLeadIn (mark : StartMark) (s : State) : Host.Outcome State Fault Refusal :=
  .next (if s.port.station = .notQualified then s
    else
      match s.line.condition with
      | .idle => frameBegins mark (captureAt mark s) s
      | .gap => frameBegins mark none s
      | .frame | .awaitRecessive => s)

/-- The line is taken as idle (R24). -/
def lineFallsIdle (l : LineController) : LineController :=
  { l with condition := .idle, leadIn := none, remainder := none }

/-- LINE_IDLE (R24, R46): the gap, or the 8 recessive bit times, have passed with the line recessive. -/
def execLineIdle (s : State) : Host.Outcome State Fault Refusal :=
  .next (if s.port.station = .notQualified ∨ s.line.ownFrame.isSome then s
    else
      match s.line.condition with
      | .gap | .awaitRecessive => { s with line := lineFallsIdle s.line }
      | .idle | .frame => s)

end Sys2Proof.Machine
end

