-- ==== Sys2Proof/Config.lean ====
section
/-! DEFINITION. The free values: constants without a body, so that no proof can see what they are. Each is applied
to the counter `State.freeCount`, which the step reads and advances. -/

namespace Sys2Proof

/-- What the station clocks out after the last octet of a held answer, when a select period is longer than the
answer: R187 does not say. DESIGN CHOICE (assumption log 2): a free value. -/
opaque Config.trailingOctet : Nat → Octet

/-- Which of several events that fall in one oscillator microsecond is taken first, where the manual says that
either may be (R20, R49, R75, R95, R137, R151, R176). DESIGN CHOICE (assumption log 3): a free value. -/
opaque Config.coincidence : Nat → Nat

end Sys2Proof
end

