-- ==== Sys2Proof/Machine/FieldOps.lean ====
section
/-! DEFINITION. The input unit (chapter 4) and the movement timer (chapter 5). -/

namespace Sys2Proof.Machine

/-! ## Edges and bursts (sections 4.2 to 4.4) -/

/-- A terminal is an INPUT. -/
def isInput : Terminal → Bool
  | .input _ _ _ => true
  | _ => false

/-- The settle time of an INPUT terminal in microseconds (R73). -/
def settleUs : Terminal → Nat
  | .input settle _ _ => settle * 1000
  | _ => 0

/-- An input's state changed. -/
def putInput (t : Fin 40) (i : InputState) (s : State) : State := { s with inputs := s.inputs.set t i }

/-- The burst that a first edge opens (R73). -/
def openBurst (now : Elapsed) (stamp : Stamp) (settle : Nat) : Burst :=
  { stamp := stamp, start := now, latest := now, bounces := 0, expiry := now + usSpan settle }

/-- The bounce count after an edge to `level` inside a burst (R74). -/
def bouncesAfter (proven : Option Bool) (level : Bool) (b : Burst) : Nat :=
  if proven = some level then saturatingAdd 65535 b.bounces 1 else b.bounces

/-- A later edge of an open burst (R74). -/
def extendBurst (now : Elapsed) (settle : Nat) (proven : Option Bool) (level : Bool) (b : Burst) : Burst :=
  { b with latest := now, expiry := now + usSpan settle, bounces := bouncesAfter proven level b }

/-- A bounce brings the count to a multiple of 16 (R76). -/
def chatters (before after : Nat) : Bool := before != after && decide (after % 16 = 0)

/-- An edge on an input (R71, R73, R74, R76). -/
def takeEdge (t : Fin 40) (settle : Nat) (level : Bool) (s : State) : State :=
  let i := s.inputs[t]
  match i.burst with
  | none =>
    putInput t { i with level := level, burst := some (openBurst s.time.elapsed (stampNow s) settle) } s
  | some b =>
    let b' := extendBurst s.time.elapsed settle i.proven level b
    let s' := putInput t
      { i with level := level, burst := some b', unstable := i.unstable || (chatters b.bounces b'.bounces && decide (b'.bounces = 16)) } s
    if chatters b.bounces b'.bounces then offerRecordNow (.chatter t.val b'.bounces) s' else s'

/-- The level at a terminal as the world puts it there. -/
def putLevel (t : Fin 40) (level : Bool) (s : State) : State :=
  { s with pins := { s.pins with levels := s.pins.levels.set t level } }

/-! ## Movements (chapter 5) -/

/-- A movement signal (R81). -/
structure Signal where
  drive : Bool
  on : Bool
  stamp : Stamp
  elapsed : Elapsed
  deriving DecidableEq, Repr

/-- A pair's limit in microseconds (R86). -/
def limitUs (c : PairConfig) : Nat := c.limitTenths * 100000

/-- A detection edge is not earlier than the start (R88). -/
def notEarlier (g : Signal) (m : MovementStart) : Bool := decide (elapsedSince g.elapsed m.elapsed < 2 ^ 47)

/-- A MOVEMENT record (R92). -/
def movementBody (k : Fin 8) (v : Verdict) (m : MovementStart) (duration : Option Nat) : EventBody :=
  .movement (k.val + 1) v (stampEpoch m.stamp) duration

/-- The pair in MOVING from a DRIVE ON signal (R87, R91). -/
def movingFrom (c : PairConfig) (g : Signal) : PairState :=
  .moving { stamp := g.stamp, elapsed := g.elapsed } (g.elapsed + usSpan (limitUs c))

/-- A pair's state changed. -/
def putPair (k : Fin 8) (p : PairState) (s : State) : State := { s with pairs := s.pairs.set k p }

/-- The record a closing signal offers, and the pair's next state (R88, R90, R91). -/
def closeMovement (k : Fin 8) (v : Verdict) (m : MovementStart) (g : Signal) (next : PairState) (s : State) : State :=
  putPair k next (offerRecord g.stamp (movementBody k v m (some (elapsedSince g.elapsed m.elapsed))) s)

/-- A pair acts on a signal by its state (R87, R88, R90, R91 and the table after R91). -/
def takeSignal (k : Fin 8) (c : PairConfig) (g : Signal) (s : State) : State :=
  if !g.on then s
  else
    match s.pairs[k], g.drive with
    | .idle, true => putPair k (movingFrom c g) s
    | .idle, false => s
    | .moving m _, true => closeMovement k .restarted m g (movingFrom c g) s
    | .overdue m, true => closeMovement k .restarted m g (movingFrom c g) s
    | .moving m _, false => if notEarlier g m then closeMovement k .normal m g .idle s else s
    | .overdue m, false => if notEarlier g m then closeMovement k .lateEnd m g .idle s else s

/-- The signals of one proven change to one pair: DRIVE first, then DETECTION (R81, R85). -/
def signalPair (t : Fin 40) (on : Bool) (b : Burst) (s : State) (k : Fin 8) : State :=
  match s.port.image.pairs[k] with
  | some c =>
    let g : Signal := { drive := true, on := on, stamp := b.stamp, elapsed := b.start }
    let s := if c.drive = t then takeSignal k c g s else s
    if c.detection = t then takeSignal k c { g with drive := false } s else s
  | none => s

/-- The signals of one proven change to every pair that names the input, in ascending pair order (R81). -/
def signalPairs (t : Fin 40) (on : Bool) (b : Burst) (s : State) : State :=
  (List.finRange 8).foldl (signalPair t on b) s

/-- A pair in MOVING has reached its limit expiry (R89). -/
def limitReached (now : Elapsed) : PairState → Bool
  | .moving _ expiry => reached now expiry
  | .idle | .overdue _ => false

/-- A limit expiry taken (R89). -/
def takeLimit (s : State) (k : Fin 8) : State :=
  match s.pairs[k] with
  | .moving m _ => putPair k (.overdue m) (offerRecordNow (movementBody k .overtime m none) s)
  | .idle | .overdue _ => s

/-- A proven change to ON of the pair's drive input put the pair into MOVING (R87, R91). -/
def drivenBy (t : Fin 40) (on : Bool) (c : Option PairConfig) : Bool :=
  match c with
  | some c => on && c.drive == t
  | none => false

/-- The limit expiry of a pair that a proven change put into MOVING with its limit already used (R87, R91). -/
def takeUsedLimit (t : Fin 40) (on : Bool) (s : State) (k : Fin 8) : State :=
  if drivenBy t on s.port.image.pairs[k] && limitReached s.time.elapsed s.pairs[k] then takeLimit s k else s

/-! ## The proven change (sections 4.5 and 4.6) -/

/-- The body of the notice of a proven change (R79). -/
def noticeBodyOf (t : Fin 40) (on : Bool) (n : NoticeSeq) (p : Stamp) : NoticeBody :=
  { channel := BitVec.ofNat 6 t.val, newState := on, seq := n, day := BitVec.ofNat 16 p.date.day,
    us := BitVec.ofNat 37 p.date.us, epoch := p.epoch, timeState := BitVec.ofNat 3 (timeStateCode p.timeState) }

/-- The notice class and priority of a terminal (R113). -/
def noticeClassOf : Terminal → NoticeClass
  | .input _ cls _ => cls
  | _ => .none

def priorityOf : Terminal → Nat
  | .input _ _ priority => priority
  | _ => 0

/-- Steps 1 to 3 of R77 for a shared input: the notice sequence is taken, the STATE CHANGE record is offered, the
notice is offered and its answer reported (R40, R43, R78, R79). -/
def shareChange (t : Fin 40) (urgent : Bool) (priority : Nat) (on : Bool) (b : Burst) (s : State) : State :=
  let n := nextOwnSeq s.line
  let s := { s with line := { s.line with ownSeq := n } }
  let eventSeq := offeredSeq (stampNow s) s.events
  let s := offerRecord b.stamp (.stateChange t.val on b.bounces .queued (some n)) s
  offerNotice urgent priority (noticeBodyOf t on n b.stamp) eventSeq s

/-- Step 2 of R77 for an input of class NONE (R78). -/
def keepChange (t : Fin 40) (on : Bool) (b : Burst) (s : State) : State :=
  offerRecord b.stamp (.stateChange t.val on b.bounces .notShared none) s

/-- Steps 1 to 3 of R77, by notice class. -/
def recordChange (t : Fin 40) (on : Bool) (b : Burst) (s : State) : State :=
  let terminal := s.port.image.terminals[t]
  match noticeClassOf terminal with
  | .none => keepChange t on b s
  | .normal => shareChange t false (priorityOf terminal) on b s
  | .urgent => shareChange t true (priorityOf terminal) on b s

/-- The observation of a proven change (R80). -/
def ownObservation (t : Fin 40) (on : Bool) (b : Burst) (s : State) : Observation :=
  { own := true, origin := s.port.image.station, channel := t.val, state := on, date := b.stamp.date,
    epoch := b.stamp.epoch, timeState := b.stamp.timeState }

/-- Step 4 of R77 (R80). -/
def observeChange (t : Fin 40) (on : Bool) (b : Burst) (s : State) : State :=
  if b.stamp.timeState = .acquiring then s else takeObservation (ownObservation t on b s) s

/-- The five steps of a proven change (R77); a pair whose limit is already used when it enters MOVING goes past it
once they are complete (R87). DESIGN CHOICE (assumption log 9): several such pairs go past theirs in ascending pair
order, where R95 leaves the order open. -/
def provenChange (t : Fin 40) (on : Bool) (b : Burst) (s : State) : State :=
  (List.finRange 8).foldl (takeUsedLimit t on) (signalPairs t on b (observeChange t on b (recordChange t on b s)))

/-- The settle expiry of an input with that open burst (R75, R76). -/
def settle (t : Fin 40) (b : Burst) (s : State) : State :=
  let i := s.inputs[t]
  let closed := { i with burst := none, unstable := false }
  if i.proven = some i.level then
    let s := putInput t closed s
    if i.unstable then offerRecordNow (.chatter t.val b.bounces) s else s
  else provenChange t i.level b (putInput t { closed with proven := some i.level } s)

/-! ## START (R72) -/

/-- An input sampled at START. -/
def sampleInput (terminal : Terminal) (level : Bool) (i : InputState) : InputState :=
  if isInput terminal then { proven := some level, level := level, burst := none, unstable := false } else i

/-- Every INPUT terminal sampled at the same instant (R72). -/
def sampleInputs (s : State) : State :=
  { s with inputs := Vector.ofFn fun t => sampleInput s.port.image.terminals[t] s.pins.levels[t] s.inputs[t] }

/-- The STATE AT START record of one INPUT terminal (R72). -/
def offerAtStart (s : State) (t : Fin 40) : State :=
  if isInput s.port.image.terminals[t] then offerRecordNow (.stateAtStart t.val s.pins.levels[t]) s else s

/-- The STATE AT START records, in ascending terminal order (R72). -/
def offerStatesAtStart (s : State) : State := (List.finRange 40).foldl offerAtStart s

end Sys2Proof.Machine
end

