-- ==== Sys2Proof/Machine/Octets.lean ====
section
/-! DEFINITION. Numbers and dates as octets on the service port, most significant octet first (R197, R198). -/

namespace Sys2Proof.Machine

/-- A number in `n` octets, most significant first (R197). -/
def beOctets (n v : Nat) : List Octet := (List.range n).map fun k => BitVec.ofNat 8 (v / 256 ^ (n - 1 - k))

/-- One octet. -/
def octet (v : Nat) : Octet := BitVec.ofNat 8 v

/-- A date: two octets of day, five of µs of day (R197). -/
def dateOctets (d : Date) : List Octet := beOctets 2 d.day ++ beOctets 5 d.us

/-- A number from octets, most significant first (R198). -/
def beNumber (l : List Octet) : Nat := l.foldl (fun n o => n * 256 + o.toNat) 0

/-- The number in `n` octets that begin at octet `i`. -/
def field (l : List Octet) (i n : Nat) : Nat := beNumber ((l.drop i).take n)

/-- A date at octet `i`: two octets of day, five of µs of day (R198). -/
def dateField (l : List Octet) (i : Nat) : Date := { day := field l i 2, us := field l (i + 2) 5 }

end Sys2Proof.Machine
end

