-- ==== Sys2Proof/Machine/Operands.lean ====
section
/-! DEFINITION. The operand forms of the host's commands: parameter octets read and judged (R131, R190, R198). -/

namespace Sys2Proof.Machine

/-- A date within its ranges (R65, R129). -/
def dateInRange (d : Date) : Bool := decide (d.day ≤ 65535) && decide (d.us < dayLength)

/-- A number within a range. -/
def within (lo hi n : Nat) : Option Nat := if lo ≤ n ∧ n ≤ hi then some n else none

/-- A number as a place among `k`. -/
def place (k n : Nat) : Option (Fin k) := if h : n < k then some ⟨n, h⟩ else none

/-- A number from 1 to `k` as a place from 0. -/
def placeFromOne (k n : Nat) : Option (Fin k) := if 1 ≤ n then place k (n - 1) else none

/-! ## LOAD ENTRY (R129, R131, R198) -/

def subjectStateCode : SubjectState → Nat
  | .off => 0
  | .on => 1
  | .any => 2

def subjectStateOfCode : Nat → Option SubjectState
  | 0 => some .off
  | 1 => some .on
  | 2 => some .any
  | _ => none

/-- The due kind with the field it reads; the other due field is not read. -/
def dueKindField (l : List Octet) : Option DueKind :=
  match field l 5 1 with
  | 0 => if dateInRange (dateField l 6) then some (.absolute (dateField l 6)) else none
  | 1 => (within 0 3600000 (field l 13 4)).map .relative
  | _ => none

/-- The predecessor, `some none` where octet 24 gives it as absent. -/
def predecessorField (l : List Octet) : Option (Option (Fin 256)) :=
  match field l 24 1 with
  | 0 => some none
  | 1 => (place 256 (field l 25 2)).map some
  | _ => none

/-- The fields of LOAD ENTRY, `none` where one lies outside its range; `slot` is judged already. -/
def loadFields (slot : Fin 256) (l : List Octet) : Option LoadFields := do
  let origin ← within 0 63 (field l 2 1)
  let channel ← within 0 39 (field l 3 1)
  let state ← subjectStateOfCode (field l 4 1)
  let dueKind ← dueKindField l
  let early ← within 0 600000 (field l 17 3)
  let late ← within 0 600000 (field l 20 3)
  let grade ← within 0 7 (field l 23 1)
  let predecessor ← predecessorField l
  pure { slot := slot, origin := origin, channel := channel, state := state, dueKind := dueKind, earlyMs := early,
         lateMs := late, grade := grade, predecessor := predecessor }

/-! ## CONFIGURE (R189, R190, R198) -/

def noticeClassOfCode : Nat → Option NoticeClass
  | 0 => some .none
  | 1 => some .normal
  | 2 => some .urgent
  | _ => none

/-- A terminal item's values; for a role other than INPUT the last three octets are not read. -/
def terminalValue (v : List Octet) : Option Terminal :=
  match field v 0 1 with
  | 0 => some .unused
  | 1 => do
    let settle ← within 1 255 (field v 1 1)
    let cls ← noticeClassOfCode (field v 2 1)
    let priority ← within 0 15 (field v 3 1)
    pure (.input settle cls priority)
  | 2 => some .clock
  | 3 => some .proving
  | 4 => some .reference
  | _ => none

/-- A movement pair's values; `some none` is NOT CONFIGURED, whose other octets are not read. -/
def pairValue (v : List Octet) : Option (Option PairConfig) :=
  match field v 0 1 with
  | 0 => some none
  | 1 => do
    let drive ← place 40 (field v 1 1)
    let detection ← place 40 (field v 2 1)
    let limit ← within 1 300 (field v 3 2)
    pure (some { drive := drive, detection := detection, limitTenths := limit })
  | _ => none

/-- A step period of 30 s or 60 s. -/
def stepPeriod (n : Nat) : Option Nat := if n = 30 ∨ n = 60 then some n else none

/-- A pulse width of 100 to 2 000 ms in steps of 10 ms. -/
def pulseWidth (n : Nat) : Option Nat := if 100 ≤ n ∧ n ≤ 2000 ∧ n % 10 = 0 then some n else none

/-- A clock line's values; `some none` is NOT CONFIGURED. -/
def clockValue (v : List Octet) : Option (Option ClockConfig) :=
  match field v 0 1 with
  | 0 => some none
  | 1 => do
    let a ← place 40 (field v 1 1)
    let b ← place 40 (field v 2 1)
    let proving ← place 40 (field v 3 1)
    let step ← stepPeriod (field v 4 1)
    let width ← pulseWidth (field v 5 2)
    let spacing ← within 1 10 (field v 7 1)
    let hold ← within 0 120 (field v 8 1)
    pure (some { driveA := a, driveB := b, proving := proving, stepSeconds := step, widthMs := width,
                 spacingSeconds := spacing, holdMinutes := hold })
  | _ => none

/-- A six-bit value. -/
def sixBits (n : Nat) : Option (BitVec 6) := (within 0 63 n).map (BitVec.ofNat 6)

/-- The action of an acceptance entry: OFFER 0, IGNORE 1. -/
def offerOfCode : Nat → Option Bool
  | 0 => some true
  | 1 => some false
  | _ => none

/-- An acceptance entry's values; `some none` is UNUSED. -/
def acceptValue (v : List Octet) : Option (Option AcceptEntry) :=
  match field v 0 1 with
  | 0 => some none
  | 1 => do
    let ov ← sixBits (field v 1 1)
    let om ← sixBits (field v 2 1)
    let cv ← sixBits (field v 3 1)
    let cm ← sixBits (field v 4 1)
    let offer ← offerOfCode (field v 5 1)
    pure (some { originValue := ov, originMask := om, channelValue := cv, channelMask := cm, offer := offer })
  | _ => none

/-- An item of the configuration image with its new values (R189). -/
inductive ImageItem where
  | station (n : Nat)
  | lineDelay (us : Nat)
  | watchLead (seconds : Nat)
  | grace (ms : Nat)
  | silenceLimit (seconds : Nat)
  | attention (threshold : Nat)
  | terminal (t : Fin 40) (value : Terminal)
  | pair (k : Fin 8) (value : Option PairConfig)
  | line (k : Fin 4) (value : Option ClockConfig)
  | accept (k : Fin 16) (value : Option AcceptEntry)
  deriving DecidableEq, Repr

/-- How many value octets follow class and index, by class (R198); none for a class that is not 1 to 10. -/
def valueOctets : Nat → Option Nat
  | 1 | 2 | 5 | 6 => some 1
  | 3 | 4 => some 2
  | 7 => some 4
  | 8 => some 5
  | 9 => some 9
  | 10 => some 6
  | _ => none

/-- A class, an index and value octets read as an item, `none` where one lies outside its range (R189, R190). -/
def imageItem (cls index : Nat) (v : List Octet) : Option ImageItem :=
  match cls with
  | 1 => if index = 0 then (within 1 62 (field v 0 1)).map .station else none
  | 2 => if index = 0 then (within 0 63 (field v 0 1)).map .lineDelay else none
  | 3 => if index = 0 then (within 0 3600 (field v 0 2)).map .watchLead else none
  | 4 => if index = 0 then (within 0 5000 (field v 0 2)).map .grace else none
  | 5 => if index = 0 then (within 2 60 (field v 0 1)).map .silenceLimit else none
  | 6 => if index = 0 then (within 0 8 (field v 0 1)).map .attention else none
  | 7 => do pure (.terminal (← place 40 index) (← terminalValue v))
  | 8 => do pure (.pair (← placeFromOne 8 index) (← pairValue v))
  | 9 => do pure (.line (← placeFromOne 4 index) (← clockValue v))
  | 10 => do pure (.accept (← place 16 index) (← acceptValue v))
  | _ => none

/-! ## The octets that spell an item or an entry (R198), the other way -/

/-- The class of an item (R189). -/
def itemClass : ImageItem → Nat
  | .station _ => 1
  | .lineDelay _ => 2
  | .watchLead _ => 3
  | .grace _ => 4
  | .silenceLimit _ => 5
  | .attention _ => 6
  | .terminal _ _ => 7
  | .pair _ _ => 8
  | .line _ _ => 9
  | .accept _ _ => 10

/-- The index of an item (R189). -/
def itemIndex : ImageItem → Nat
  | .terminal t _ => t.val
  | .pair k _ => k.val + 1
  | .line k _ => k.val + 1
  | .accept k _ => k.val
  | _ => 0

def noticeClassCode : NoticeClass → Nat
  | .none => 0
  | .normal => 1
  | .urgent => 2

/-- The four value octets of a terminal; the last three of a role other than INPUT are not read. -/
def terminalOctets : Terminal → List Octet
  | .unused => [0, 0, 0, 0]
  | .input settle cls priority => [1, octet settle, octet (noticeClassCode cls), octet priority]
  | .clock => [2, 0, 0, 0]
  | .proving => [3, 0, 0, 0]
  | .reference => [4, 0, 0, 0]

def pairOctets : Option PairConfig → List Octet
  | none => [0, 0, 0, 0, 0]
  | some c => [1, octet c.drive.val, octet c.detection.val] ++ beOctets 2 c.limitTenths

def clockConfigOctets : Option ClockConfig → List Octet
  | none => [0, 0, 0, 0, 0, 0, 0, 0, 0]
  | some c =>
    [1, octet c.driveA.val, octet c.driveB.val, octet c.proving.val, octet c.stepSeconds] ++
      beOctets 2 c.widthMs ++ [octet c.spacingSeconds, octet c.holdMinutes]

def sixBitOctet (b : BitVec 6) : Octet := octet b.toNat

def acceptOctets : Option AcceptEntry → List Octet
  | none => [0, 0, 0, 0, 0, 0]
  | some a =>
    [1, sixBitOctet a.originValue, sixBitOctet a.originMask, sixBitOctet a.channelValue, sixBitOctet a.channelMask,
      if a.offer then 0 else 1]

/-- The value octets of an item (R198). -/
def itemOctets : ImageItem → List Octet
  | .station n | .lineDelay n | .silenceLimit n | .attention n => [octet n]
  | .watchLead n | .grace n => beOctets 2 n
  | .terminal _ v => terminalOctets v
  | .pair _ v => pairOctets v
  | .line _ v => clockConfigOctets v
  | .accept _ v => acceptOctets v

/-- Octets 5 to 16 of LOAD ENTRY: the due kind, the absolute due and the relative offset. -/
def dueOctets : DueKind → List Octet
  | .absolute d => 0 :: dateOctets d ++ [0, 0, 0, 0]
  | .relative ms => 1 :: List.replicate 7 0 ++ beOctets 4 ms

def predecessorOctets : Option (Fin 256) → List Octet
  | none => [0, 0, 0]
  | some p => 1 :: beOctets 2 p.val

/-- The 27 parameter octets of a LOAD ENTRY (R198). -/
def loadOctets (f : LoadFields) : List Octet :=
  beOctets 2 f.slot.val ++ [octet f.origin, octet f.channel, octet (subjectStateCode f.state)] ++
    dueOctets f.dueKind ++ beOctets 3 f.earlyMs ++ beOctets 3 f.lateMs ++ [octet f.grade] ++
    predecessorOctets f.predecessor

end Sys2Proof.Machine
end

