-- ==== Sys2Proof/Machine/Formats.lean ====
section
/-! DEFINITION. Answers and records as octets on the service port (R187, R197, R199). -/

namespace Sys2Proof.Machine

/-- Octets not assigned to a field are 0 (R197). -/
def padTo (n : Nat) (l : List Octet) : List Octet := l ++ List.replicate (n - l.length) 0

/-- A field of `n` octets that is zero when absent (R197). -/
def orZeros {α : Type} (n : Nat) (f : α → List Octet) : Option α → List Octet
  | some a => f a
  | none => List.replicate n 0

/-- A flag octet: bit 0 first (R197). -/
def flagOctet (flags : List Bool) : Octet := octet (flags.foldr (fun b n => b.toNat + 2 * n) 0)

/-! ## Answers (R187) -/

/-- The refusal codes of R187. -/
inductive RefusalCode where
  | state
  | range
  | full
  | empty
  | config (itemClass index : Nat)
  deriving DecidableEq, Repr

/-- The answer REFUSED with a code (R187). -/
def refusedWith : RefusalCode → List Octet
  | .state => [1, 1]
  | .range => [1, 2]
  | .full => [1, 3]
  | .empty => [1, 4]
  | .config c i => [1, 5, octet c, octet i]

/-- The answer DONE with what the command returns (R187). -/
def doneWith (returned : List Octet) : List Octet := 0 :: returned

/-! ## Event records (R197) -/

def kindCode : EventBody → Nat
  | .start _ => 1
  | .stateAtStart _ _ => 2
  | .stateChange .. => 3
  | .chatter _ _ => 4
  | .movement .. => 5
  | .timeStep _ _ => 6
  | .gap .. => 7

def broadcastCode : Broadcast → Nat
  | .notShared => 0
  | .queued => 1
  | .sent => 2
  | .droppedFull => 3
  | .droppedObjected => 4
  | .droppedWithdrawn => 5

def verdictCode : Verdict → Nat
  | .normal => 0
  | .overtime => 1
  | .lateEnd => 2
  | .restarted => 3

def causeCode : ResetCause → Nat
  | .powerOn => 0
  | .restart => 1

def epochDateOctets (d : DatedEpoch) : List Octet := d.epoch :: dateOctets d.date

/-- Octets 12 to 31 of an event record, by kind. -/
def eventPartOctets : EventBody → List Octet
  | .start cause => [octet (causeCode cause)]
  | .stateAtStart ch st => [octet ch, octet st.toNat]
  | .stateChange ch st bounces b ns =>
    [octet ch, octet st.toNat] ++ beOctets 2 bounces ++ [octet (broadcastCode b)] ++ orZeros 1 (fun n => [n]) ns ++
      [flagOctet [ns.isSome]]
  | .chatter ch bounces => [octet ch, 0] ++ beOctets 2 bounces
  | .movement pair v start duration =>
    [octet pair, octet (verdictCode v), flagOctet [duration.isSome]] ++ epochDateOctets start ++
      orZeros 6 (beOctets 6) duration
  | .timeStep oldDate newDate => dateOctets oldDate ++ dateOctets newDate
  | .gap lost first last => beOctets 2 lost ++ epochDateOctets first ++ epochDateOctets last

/-- An event record, 32 octets. -/
def eventRecordOctets (r : EventRecord) : List Octet :=
  padTo 32 (beOctets 2 r.seq.toNat ++
    [octet (kindCode r.body), octet (timeStateCode r.stamp.timeState), r.stamp.epoch] ++ dateOctets r.stamp.date ++
    eventPartOctets r.body)

/-! ## Deviation records (R197) -/

def deviationKindCode : DeviationKind → Nat
  | .early => 1
  | .late => 2
  | .missed => 3
  | .unobservable => 4
  | .cleared => 5

/-- The difference in 48-bit two's complement. -/
def differenceOctets (d : Int) : List Octet := beOctets 6 (BitVec.ofInt 48 d).toNat

def deviationObservationOctets (o : DeviationObservation) : List Octet :=
  [octet o.origin, o.epoch] ++ dateOctets o.date ++ differenceOctets o.differenceMs

/-- A deviation record, 28 octets. -/
def deviationOctets (d : Deviation) : List Octet :=
  padTo 28 (beOctets 2 d.seq.toNat ++
    [octet (deviationKindCode d.kind), octet d.slot, octet d.grade, flagOctet [d.doubt, d.observation.isSome]] ++
    dateOctets d.due ++ orZeros 15 deviationObservationOctets d.observation)

/-! ## Check entries (R197) -/

def statusCode : EntryStatus → Nat
  | .waiting => 1
  | .pending => 2
  | .armed => 3
  | .satisfied => 4
  | .missed => 5
  | .unobservable => 6
  | .cleared => 7
  | .void => 8

def checkVerdictCode : CheckVerdict → Nat
  | .onTime => 0
  | .early => 1
  | .late => 2

def isRelative : DueKind → Bool
  | .relative _ => true
  | .absolute _ => false

/-- The relative offset, 0 for an ABSOLUTE entry. -/
def relativeOffset : DueKind → Nat
  | .relative ms => ms
  | .absolute _ => 0

/-- The absolute due, 0 for a RELATIVE entry. -/
def absoluteDue : DueKind → Date
  | .absolute d => d
  | .relative _ => { day := 0, us := 0 }

def entryDatesOctets (d : EntryDates) : List Octet :=
  dateOctets d.due ++ dateOctets d.opening ++ dateOctets d.missDeadline

def matchedOctets (m : Matched) : List Octet := [octet m.origin, m.epoch] ++ dateOctets m.date

/-- A check entry that is not EMPTY, 66 octets. -/
def heldEntryOctets (slot : Fin 256) (e : CheckEntry) : List Octet :=
  padTo 66 ([octet slot.val, octet (statusCode e.status), octet ((e.verdict.map checkVerdictCode).getD 0),
      flagOctet [e.predecessor.isSome, e.dates.isSome, e.armingDate.isSome, e.snapshot.isSome, e.matched.isSome,
        isRelative e.dueKind],
      octet e.origin, octet e.channel, octet (subjectStateCode e.state), octet e.grade] ++
    orZeros 1 (fun p => [octet p.val]) e.predecessor ++ beOctets 4 (relativeOffset e.dueKind) ++
    beOctets 3 e.earlyMs ++ beOctets 3 e.lateMs ++ dateOctets (absoluteDue e.dueKind) ++
    orZeros 21 entryDatesOctets e.dates ++ orZeros 7 dateOctets e.armingDate ++
    orZeros 2 (beOctets 2) e.snapshot ++ orZeros 9 matchedOctets e.matched)

/-- A slot of the check table as READ ENTRY returns it: for an EMPTY slot every octet after octet 1 is 0. -/
def entryOctets (slot : Fin 256) (e : Option CheckEntry) : List Octet :=
  match e with
  | some e => heldEntryOctets slot e
  | none => padTo 66 [octet slot.val]

/-! ## Heard entries (R197) -/

def presenceCode : Presence → Nat
  | .never => 0
  | .present => 1
  | .silent => 2

def lastPresenceOctets (p : LastPresence) : List Octet :=
  [octet (timeStateCode p.timeState), octet p.grade.toNat, p.epoch, octet p.standing.toNat]

/-- A heard entry, 16 octets. -/
def heardOctets (origin : Nat) (e : HeardEntry) : List Octet :=
  [octet origin, octet (presenceCode e.presence),
    flagOctet [e.lastGood.isSome, e.lastSeq.isSome, e.lastPresence.isSome]] ++
    orZeros 6 (fun t => beOctets 6 t.toNat) e.lastGood ++ orZeros 1 (fun n => [n]) e.lastSeq ++
    beOctets 2 e.missed ++ orZeros 4 lastPresenceOctets e.lastPresence

/-! ## The status answer (R199) -/

def stationCode : StationState → Nat
  | .notQualified => 0
  | .config => 1
  | .run => 2

def clockStateCode : ClockState → Nat
  | .unset => 0
  | .active => 1
  | .suspended => 2
  | .fault => 3

def supplyCode : Supply → Nat
  | .normal => 0
  | .reduced => 1

def polarityCode : Polarity → Nat
  | .a => 0
  | .b => 1

/-- Ten octets of an urgent condition. -/
def urgentOctets (u : UrgentRecord) : List Octet :=
  [octet u.flag.toNat, octet u.count] ++ orZeros 8 epochDateOctets u.first

/-- Seven octets of a clock line. -/
def clockOctets (configured : Bool) (l : ClockLine) : List Octet :=
  [octet configured.toNat, octet (clockStateCode l.state), flagOctet [l.dial.isSome, l.pulse.isSome]] ++
    orZeros 2 (beOctets 2) l.dial ++ [octet (polarityCode l.nextPolarity), octet l.unproven]

/-- The seven octets of each clock line in turn. -/
def clocksOctets (lines : Vector (Option ClockConfig) 4) (clocks : Vector ClockLine 4) : List Octet :=
  (List.finRange 4).flatMap fun i => clockOctets lines[i].isSome clocks[i]

/-- The 162 octets of READ STATUS (R194, R199). -/
def statusOctets (s : State) : List Octet :=
  [octet (stationCode s.port.station), octet s.port.image.station, octet (timeStateCode s.agreement.timeState),
    octet s.agreement.grade, s.time.epoch] ++
  dateOctets s.time.date ++ [octet s.time.fraction] ++ beOctets 2 (BitVec.ofInt 16 s.time.trim).toNat ++
  [octet (standingCode s.line.standing), octet s.line.score, octet s.line.txQueue.length] ++
  s.line.hits.toList.flatMap (beOctets 2) ++
  beOctets 2 s.events.records.length ++ beOctets 2 (slotsInUse s.checker) ++
  beOctets 2 s.checker.deadlines.length ++ beOctets 2 s.checker.refused ++ beOctets 2 s.checker.unmatched ++
  s.report.urgent.toList.flatMap urgentOctets ++
  [octet s.report.deviations.length] ++ beOctets 2 s.report.displaced ++
  [octet (supplyCode s.supply)] ++ clocksOctets s.port.image.lines s.clocks

end Sys2Proof.Machine
end

