-- ==== Sys2Proof/Machine/PortOps.lean ====
section
/-! DEFINITION. The service port (chapter 11): select periods and answers, the configuration image, START validation,
and the reset of RESTART. -/

namespace Sys2Proof.Machine

/-! ## Select periods (R186 to R188) -/

/-- The octets clocked out in a select period of `n` octets: the held answer, or the idle level, all ones. What
follows the last octet of an answer is a free value (assumption log 2). -/
def clockedOut (n free : Nat) (answer : Option (List Octet)) : List Octet :=
  match answer with
  | some a => a.take n ++ (List.range (n - a.length)).map fun k => Config.trailingOctet (free + k)
  | none => List.replicate n 0xFF#8

/-- How many free values that reads. -/
def trailingCount (n : Nat) (answer : Option (List Octet)) : Nat :=
  match answer with
  | some a => n - a.length
  | none => 0

/-- The held answer is clocked out and discarded (R187). -/
def clockOutAnswer (n : Nat) (s : State) : State :=
  { s with
    port := { s.port with output := clockedOut n s.freeCount s.port.answer, answer := none }
    freeCount := s.freeCount + trailingCount n s.port.answer }

/-- A select period of `n` octets discarded whole: the output stays at the idle level (R186). -/
def discardPeriod (n : Nat) (s : State) : State :=
  { s with port := { s.port with output := List.replicate n 0xFF#8 } }

/-- The answer held for the host (R187). -/
def holdAnswer (a : List Octet) (s : State) : State := { s with port := { s.port with answer := some a } }

/-- The period is discarded: it began in NOT-QUALIFIED, or the station still is (R186). -/
def periodDiscarded (early : Bool) (s : State) : Bool := early || s.port.station == .notQualified

/-- What a command does: the state after it, and its answer. -/
abbrev CommandEffect := State × List Octet

/-- A command refused, which changes nothing (R187). -/
def refuse (r : RefusalCode) (s : State) : CommandEffect := (s, refusedWith r)

/-- A command answered DONE with what it returns. -/
def done (returned : List Octet) (s : State) : CommandEffect := (s, doneWith returned)

/-- The state with the answer of a command held. -/
def answered (e : CommandEffect) : State := holdAnswer e.2 e.1

/-- A select period that carries a command of `n` octets in all (R187): the held answer goes out, the form is judged,
then the station state, then the command's own rule. `wellFormed` says that it has the parameter octets it defines,
`taken` that the station state takes it (R188). -/
def selectCommand (early : Bool) (n : Nat) (wellFormed taken : Bool) (command : State → CommandEffect) (s : State) :
    State :=
  if periodDiscarded early s then discardPeriod n s
  else
    let s := clockOutAnswer n s
    if 72 < n then answered (refuse .full s)
    else if !wellFormed then answered (refuse .range s)
    else if !taken then answered (refuse .state s)
    else answered (command s)

/-- A host command with a fixed number of parameter octets. -/
def hostCommand (p : SelectPeriod) (count : Nat) (taken : Bool) (command : State → CommandEffect) (s : State) :
    State :=
  selectCommand p.early (p.params.length + 1) (decide (p.params.length = count)) taken command s

/-- Taken in CONFIG alone (R188). -/
def inConfig (s : State) : Bool := s.port.station == .config

/-- Taken in CONFIG and RUN (R188). -/
def inConfigOrRun (s : State) : Bool := inConfig s || inRun s

/-! ## CONFIGURE (R190) -/

/-- The form of a CONFIGURE (R187, R198): class, index and the value octets of the class; a class that is not 1 to
10 is left to R190, whatever follows it. -/
def configureForm (p : List Octet) : Bool :=
  match p with
  | [] => false
  | cls :: rest =>
    match valueOctets cls.toNat with
    | some n => decide (rest.length = n + 1)
    | none => true

/-- The role of a terminal item (R189). -/
def roleCode : Terminal → Nat
  | .unused => 0
  | .input _ _ _ => 1
  | .clock => 2
  | .proving => 3
  | .reference => 4

/-- A configured line names the terminal. -/
def lineNames (t : Fin 40) : Option ClockConfig → Bool
  | some c => c.driveA == t || c.driveB == t || c.proving == t
  | none => false

/-- A clock line that has a pulse in flight uses the terminal (R190). -/
def terminalPulsing (t : Fin 40) (s : State) : Bool :=
  (List.finRange 4).any fun k => s.clocks[k].pulse.isSome && lineNames t s.port.image.lines[k]

/-- A pulse in flight keeps the item from being written (R190). -/
def itemHeld (i : ImageItem) (s : State) : Bool :=
  match i with
  | .line k _ => s.clocks[k].pulse.isSome
  | .terminal t v => decide (roleCode v ≠ roleCode s.port.image.terminals[t]) && terminalPulsing t s
  | _ => false

/-- The image with an item written whole (R190). -/
def writeImage (i : ImageItem) (img : Image) : Image :=
  match i with
  | .station n => { img with station := n }
  | .lineDelay n => { img with lineDelay := n }
  | .watchLead n => { img with watchLead := n }
  | .grace n => { img with grace := n }
  | .silenceLimit n => { img with silenceLimit := n }
  | .attention n => { img with attention := n }
  | .terminal t v => { img with terminals := img.terminals.set t v }
  | .pair k v => { img with pairs := img.pairs.set k v }
  | .line k v => { img with lines := img.lines.set k v }
  | .accept k v => { img with acceptance := img.acceptance.set k v }

/-- The clock-line records after a write (R169, R190). -/
def clocksAfterWrite (i : ImageItem) (clocks : Vector ClockLine 4) : Vector ClockLine 4 :=
  match i with
  | .line k _ => clocks.set k clockLinePowerOn
  | _ => clocks

/-- The hit counts after a write (R127, R190). -/
def hitsAfterWrite (i : ImageItem) (hits : Vector Nat 16) : Vector Nat 16 :=
  match i with
  | .accept k _ => hits.set k 0
  | _ => hits

/-- A write answered DONE (R190); ATTENTION follows the threshold (R166). -/
def writeItem (i : ImageItem) (s : State) : State :=
  let img := writeImage i s.port.image
  { s with
    port := { s.port with image := img }
    clocks := clocksAfterWrite i s.clocks
    line := { s.line with hits := hitsAfterWrite i s.line.hits }
    report := refreshAttention img.attention s.report }

/-! ## START validation (R191) -/

/-- A class-7 item fails. -/
def terminalFails (img : Image) (t : Fin 40) : Bool :=
  match img.terminals[t] with
  | .reference => (List.finRange 40).any fun u => decide (u < t) && decide (img.terminals[u] = .reference)
  | .clock | .proving => !img.lines.toList.any (lineNames t)
  | .unused | .input _ _ _ => false

/-- A class-8 item fails. -/
def pairFails (img : Image) (k : Fin 8) : Bool :=
  match img.pairs[k] with
  | some c => !isInput img.terminals[c.drive] || !isInput img.terminals[c.detection]
  | none => false

/-- A line of lower number names the terminal. -/
def namedBelow (img : Image) (k : Fin 4) (t : Fin 40) : Bool :=
  (List.finRange 4).any fun j => decide (j < k) && lineNames t img.lines[j]

/-- A class-9 item fails. -/
def lineFails (img : Image) (k : Fin 4) : Bool :=
  match img.lines[k] with
  | some c =>
    decide (img.terminals[c.driveA] ≠ .clock) || decide (img.terminals[c.driveB] ≠ .clock) ||
      decide (img.terminals[c.proving] ≠ .proving) || decide (c.driveA = c.driveB) ||
      namedBelow img k c.driveA || namedBelow img k c.driveB || namedBelow img k c.proving ||
      decide (c.spacingSeconds * 1000 < c.widthMs + 200)
  | none => false

/-- The bad item: the first that fails, in ascending class and index (R191). -/
def badItem (img : Image) : Option (Nat × Nat) :=
  match (List.finRange 40).find? (terminalFails img) with
  | some t => some (7, t.val)
  | none =>
    match (List.finRange 8).find? (pairFails img) with
    | some k => some (8, k.val + 1)
    | none => ((List.finRange 4).find? (lineFails img)).map fun k => (9, k.val + 1)

/-! ## START (R192) and RESTART (R193) -/

/-- The agreement controller at START (R48). -/
def agreementAtStart (now : Elapsed) (a : Agreement) : Agreement :=
  { a with timeState := .acquiring, phase := some .searching, grade := 15, silenceTimer := some now }

/-- The line controller at START: in the state of R44, with the line busy until the interframe gap is seen (R46). A
frame that RESTART let run on is still finished (R45). -/
def lineAtStart (l : LineController) : LineController := { linePowerOn with ownFrame := l.ownFrame }

/-- START carried out as one action (R192). -/
def carryOutStart (s : State) : State :=
  let s := { s with
    port := { s.port with station := .run }
    agreement := agreementAtStart s.time.elapsed s.agreement }
  let s := offerRecordNow (.start s.events.cause) s
  let s := offerStatesAtStart (sampleInputs s)
  { s with line := lineAtStart s.line }

/-- The own frame at RESTART: it is finished on the line, and its outcome goes to no block (R45). -/
def frameAfterRestart (f : OwnFrame) : OwnFrame := { f with owner := .noBlock }

/-- The lead-in at RESTART: in CONFIG the station holds no capture (R46). -/
def leadInAfterRestart (l : LeadIn) : LeadIn := { l with capture := none }

/-- The line controller after RESTART (R44, R45, R114, R127). -/
def lineAfterRestart (l : LineController) : LineController :=
  { linePowerOn with
    condition := l.condition
    leadIn := l.leadIn.map leadInAfterRestart
    ownFrame := l.ownFrame.map frameAfterRestart
    objecting := l.objecting }

/-- The time base after RESTART (R22). -/
def timeAfterRestart (t : TimeBase) : TimeBase :=
  { t with slew := 0, correction := some (newCorrection t.trim 0), epoch := t.epoch + 1, outliers := [] }

/-- Every block after RESTART (R193). -/
def restartBlocks (s : State) : State :=
  { s with
    time := timeAfterRestart s.time
    agreement := agreementReset
    line := lineAfterRestart s.line
    inputs := Vector.replicate 40 inputReset
    pairs := Vector.replicate 8 .idle
    events := eventQueueReset .restart
    checker := checkerReset
    report := reportReset
    clocks := s.clocks.map clockAfterRestart
    port := { s.port with station := .config } }

end Sys2Proof.Machine
end

