-- ==== Sys2Proof/Machine/TimeBase.lean ====
section
/-! DEFINITION. The meanings of the time base's commands: POWER_ON, QUALIFICATION_END, SECOND_MARK,
CORRECTION_SECOND_END, STEP_BOUNDARY. A time-driven event whose point has not come changes nothing (assumption
log 1). -/

namespace Sys2Proof.Machine

/-- Every block at its power-on values (R21); the queue of commands, the pins and the model's counter of free values
are no part of the station and stay. -/
def afterPowerOn (s : State) : State :=
  { State.reset with pending := s.pending, pins := s.pins, freeCount := s.freeCount }

/-- POWER_ON (R1, R21, R44, R48, R70, R86, R112, R118, R127, R154, R168 to R170, R189). -/
def execPowerOn (s : State) : Host.Outcome State Fault Refusal := .next (afterPowerOn s)

/-- The elapsed count has reached 4 000 in NOT-QUALIFIED (R1, R186). -/
def qualificationDue (s : State) : Bool :=
  s.port.station == .notQualified && decide (4000 ≤ s.time.elapsed.toNat)

/-- The end of qualification (R1, R186): QUALIFIED, CONFIG, the first correction second with K = F, and the supply
status sampled from here on (R172). -/
def endQualification (s : State) : State :=
  { s with
    time := { s.time with qualified := true, correction := some (newCorrection s.time.trim s.time.slew) }
    supply := s.pins.supply
    port := { s.port with station := .config } }

/-- QUALIFICATION_END. -/
def execQualificationEnd (s : State) : Host.Outcome State Fault Refusal :=
  .next (if qualificationDue s then endQualification s else s)

/-- SECOND_MARK (R6), at the advance that reached the mark. -/
def execSecondMark (s : State) : Host.Outcome State Fault Refusal :=
  .next (takeMark s)

/-- The index of the running correction second has passed 1 000 000 (R9). -/
def correctionEnded (t : TimeBase) : Bool :=
  match t.correction with
  | some c => decide (1000000 < c.index)
  | none => false

/-- The next correction second begins at once; after a slew span s is 0 first (R9). -/
def nextCorrection (t : TimeBase) : TimeBase := { t with slew := 0, correction := some (newCorrection t.trim 0) }

/-- CORRECTION_SECOND_END. -/
def execCorrectionSecondEnd (s : State) : Host.Outcome State Fault Refusal :=
  .next (if correctionEnded s.time then { s with time := nextCorrection s.time } else s)

/-- The step boundary of a line is taken. -/
def clearBoundary (line : Fin 4) (s : State) : State :=
  { s with time := { s.time with boundaryDue := s.time.boundaryDue.set line false } }

/-- STEP_BOUNDARY (R174): the line's target, read from centre time, has risen, and R176 is applied to it. -/
def execStepBoundary (line : Fin 4) (s : State) : Host.Outcome State Fault Refusal :=
  .next (decideLine line (clearBoundary line s))

end Sys2Proof.Machine
end

