-- ==== Sys2Proof/Machine/Agreement.lean ====
section
/-! DEFINITION. The meanings of the agreement controller's commands: HOLDOVER_ENTRY, SILENCE_TIMER_EXPIRY,
HOLDOVER_AGING, REFERENCE_PULSE, REFERENCE_LOSS. -/

namespace Sys2Proof.Machine

/-- At an own mark, the close of the own second brings the seconds-without-source count to 4 (R60). -/
def holdoverEntryDue (s : State) : Bool :=
  inRun s && s.time.markDue.isSome && decide (4 ≤ closedCount s.agreement)

/-- HOLDOVER_ENTRY (R49, R60): the own mark whose close takes the station into HOLDOVER. The mark is one action: the
contention decided after the close, and the PRESENCE due point, belong to it (assumption log 19). -/
def execHoldoverEntry (s : State) : Host.Outcome State Fault Refusal :=
  .next (if holdoverEntryDue s then takeMark s else s)

/-- 8 s have passed since the silence timer's value, in ACQUIRING (R58). -/
def silenceTimerDue (s : State) : Bool :=
  match s.agreement.silenceTimer with
  | some t =>
    inRun s && s.agreement.timeState == .acquiring && reached s.time.elapsed (t + usSpan 8000000)
  | none => false

/-- The station enters SELF-TIMED at grade 14 (R58). -/
def becomeSelfTimed (a : Agreement) : Agreement :=
  { a with timeState := .selfTimed, phase := none, grade := 14, lineGood := 0, referenceGood := 0,
           silenceTimer := none }

/-- SILENCE_TIMER_EXPIRY (R58): SELF-TIMED; the pause of the deadline list ends and the clock lines may resume (R141,
R173). -/
def execSilenceTimerExpiry (s : State) : Host.Outcome State Fault Refusal :=
  .next (if silenceTimerDue s then followTime { s with agreement := becomeSelfTimed s.agreement } else s)

/-- The grade of a HOLDOVER station by its holdover time (R47, R61). -/
def agedGrade (s : State) : Nat :=
  match s.agreement.holdover with
  | some h => holdoverGrade h.grade (elapsedSince s.time.elapsed h.elapsed)
  | none => s.agreement.grade

/-- The holdover grade has a step of aging to take (R61). -/
def agingDue (s : State) : Bool :=
  inRun s && s.agreement.timeState == .holdover && decide (s.agreement.grade < agedGrade s)

/-- HOLDOVER_AGING (R61). -/
def execHoldoverAging (s : State) : Host.Outcome State Fault Refusal :=
  .next (if agingDue s then { s with agreement := { s.agreement with grade := agedGrade s } } else s)

/-- The elapsed time since the last pulse, in seconds to the nearest whole, a half rounded up (R66). -/
def pulseSeconds (now last : Elapsed) : Nat := (elapsedSince now last + 500000) / 1000000

/-- The date a pulse is expected at, `none` for a spurious one (R66). -/
def expectedDate (now : Elapsed) (a : Arming) : Option Date :=
  match a.lastExpected with
  | none => some a.armedDate
  | some d => if pulseSeconds now a.lastPulse = 0 then none
              else some (dateAdd d ((pulseSeconds now a.lastPulse * 1000000 : Nat) : Int))

/-- The arming after a pulse that is not ignored (R66). -/
def armingAfterPulse (now : Elapsed) (expected : Date) (a : Arming) : Arming :=
  { a with lastExpected := some expected, pulses := saturatingAdd 65535 a.pulses 1, lastPulse := now }

/-- A pulse taken with its expected date: its offset goes to the discipline computation as a reference source of
grade 1 (R66). -/
def takePulse (expected : Date) (a : Arming) (s : State) : State :=
  let taken := { s.agreement with arming := some (armingAfterPulse s.time.elapsed expected a) }
  let d := dateDiff expected s.time.date
  giveOffset .reference 1 d (markBeforeStep d { s with agreement := restartSilence s.time.elapsed taken })

/-- The pulse at the agreement controller of a station in RUN: ignored while disarmed, or when spurious (R66). -/
def meetPulse (s : State) : State :=
  match s.agreement.arming with
  | some a =>
    match expectedDate s.time.elapsed a with
    | some expected => takePulse expected a s
    | none => s
  | none => s

/-- The terminal of role REFERENCE (R69). -/
def referenceTerminal (img : Image) : Option (Fin 40) :=
  (List.finRange 40).find? fun t => img.terminals[t] == .reference

/-- REFERENCE_PULSE (R66): the REFERENCE terminal changes from OFF to ON. -/
def execReferencePulse (s : State) : Host.Outcome State Fault Refusal :=
  .next (match referenceTerminal s.port.image with
    | some t => if inRun s then meetPulse (putLevel t true s) else putLevel t true s
    | none => s)

/-- 3 s have passed since the last pulse of an armed reference (R67). -/
def referenceLossDue (s : State) : Bool :=
  match s.agreement.arming with
  | some a => inRun s && reached s.time.elapsed (a.lastPulse + usSpan 3000000)
  | none => false

/-- The reference disarmed (R67). -/
def disarm (a : Agreement) : Agreement := { a with arming := none, referenceGood := 0 }

/-- The loss of the reference: a REFERENCED station enters HOLDOVER from grade 1 (R67). -/
def loseReference (s : State) : State :=
  let s' := { s with agreement := disarm s.agreement }
  if s.agreement.timeState = .referenced then enterHoldover 1 s' else s'

/-- REFERENCE_LOSS. -/
def execReferenceLoss (s : State) : Host.Outcome State Fault Refusal :=
  .next (if referenceLossDue s then loseReference s else s)

end Sys2Proof.Machine
end

