-- ==== Sys2Proof/Machine/Fields.lean ====
section
/-! DEFINITION. The meanings of the field terminals' commands: EDGE, SETTLE_EXPIRY, LIMIT_EXPIRY. -/

namespace Sys2Proof.Machine

/-- A level at the REFERENCE terminal of a station in RUN: a change from OFF to ON is a pulse (R66). -/
def isPulse (terminal : Terminal) (old new : Bool) : Bool := terminal == .reference && !old && new

/-- EDGE (R71): the level at a terminal changes. In RUN an INPUT terminal whose present level differs has an edge
(R73, R74, R76), and the REFERENCE terminal's change from OFF to ON is a pulse, as REFERENCE_PULSE is (R66); a proving
terminal is sampled for its clock line (R178); in every other case the level alone changes (R69, R70). DESIGN
CHOICE (assumption log 13): each EDGE is a sample of its own, also where two of one terminal come at one elapsed value. -/
def takeLevel (t : Fin 40) (level : Bool) (s : State) : State :=
  let terminal := s.port.image.terminals[t]
  let s' := noteProvingLevel t s.pins.levels[t] level (putLevel t level s)
  if inRun s && isInput terminal && level != s.inputs[t].level then takeEdge t (settleUs terminal) level s'
  else if inRun s && isPulse terminal s.pins.levels[t] level then meetPulse s'
  else s'

/-- EDGE. -/
def execEdge (t : Fin 40) (level : Bool) (s : State) : Host.Outcome State Fault Refusal := .next (takeLevel t level s)

/-- The elapsed count has reached an input's settle expiry with its burst open (R75). -/
def settleDue (s : State) (t : Fin 40) : Bool :=
  match s.inputs[t].burst with
  | some b => inRun s && isInput s.port.image.terminals[t] && reached s.time.elapsed b.expiry
  | none => false

/-- SETTLE_EXPIRY (R75 to R81). -/
def execSettleExpiry (t : Fin 40) (s : State) : Host.Outcome State Fault Refusal :=
  .next (match s.inputs[t].burst with
    | some b => if settleDue s t then settle t b s else s
    | none => s)

/-- A pair's limit expiry is reached in RUN (R89). -/
def limitDue (s : State) (pair : Fin 8) : Bool := inRun s && limitReached s.time.elapsed s.pairs[pair]

/-- LIMIT_EXPIRY (R89). -/
def execLimitExpiry (pair : Fin 8) (s : State) : Host.Outcome State Fault Refusal :=
  .next (if limitDue s pair then takeLimit s pair else s)

end Sys2Proof.Machine
end

