-- ==== Sys2Proof/Machine/HostCommands.lean ====
section
/-! DEFINITION. The meanings of the service port's commands (chapter 11): one definition for each command, over the
select period of `selectCommand`. -/

namespace Sys2Proof.Machine

/-- CONFIGURE in CONFIG (R190). -/
def configureItem (p : List Octet) (s : State) : CommandEffect :=
  match imageItem (field p 0 1) (field p 1 1) (p.drop 2) with
  | some i => if itemHeld i s then refuse .state s else done [] (writeItem i s)
  | none => refuse .range s

/-- CONFIGURE. -/
def execConfigure (p : SelectPeriod) (s : State) : Host.Outcome State Fault Refusal :=
  .next (selectCommand p.early (p.params.length + 1) (configureForm p.params) (inConfig s) (configureItem p.params) s)

/-- START in CONFIG (R191, R192). -/
def startStation (s : State) : CommandEffect :=
  match badItem s.port.image with
  | some item => refuse (.config item.1 item.2) s
  | none => done [] (carryOutStart s)

/-- START. -/
def execStart (p : SelectPeriod) (s : State) : Host.Outcome State Fault Refusal :=
  .next (hostCommand p 0 (inConfig s) startStation s)

/-- RESTART (R193). -/
def execRestart (p : SelectPeriod) (s : State) : Host.Outcome State Fault Refusal :=
  .next (hostCommand p 0 (inConfigOrRun s) (fun s => done [] (restartBlocks s)) s)

/-- READ STATUS (R194, R199). -/
def execReadStatus (p : SelectPeriod) (s : State) : Host.Outcome State Fault Refusal :=
  .next (hostCommand p 0 (inConfigOrRun s) (fun s => done (statusOctets s) s) s)

/-- The answer of TAKE EVENTS: a count and the records, oldest first (R197). -/
def eventsOctets (l : List EventRecord) : List Octet := octet l.length :: l.flatMap eventRecordOctets

/-- TAKE EVENTS in RUN (R109). -/
def takeOldest (n : Nat) (s : State) : CommandEffect :=
  if n = 0 ∨ 8 < n then refuse .range s
  else if s.events.records = [] then refuse .empty s
  else done (eventsOctets (s.events.records.take n)) { s with events := removeOldest (stampNow s) n s.events }

/-- TAKE EVENTS. -/
def execTakeEvents (p : SelectPeriod) (s : State) : Host.Outcome State Fault Refusal :=
  .next (hostCommand p 1 (inRun s) (takeOldest (field p.params 0 1)) s)

/-- PEEK EVENT in RUN (R110). -/
def peekAt (k : Nat) (s : State) : CommandEffect :=
  match s.events.records[k]? with
  | some r => done (eventRecordOctets r) s
  | none => refuse .range s

/-- PEEK EVENT. -/
def execPeekEvent (p : SelectPeriod) (s : State) : Host.Outcome State Fault Refusal :=
  .next (hostCommand p 2 (inRun s) (peekAt (field p.params 0 2)) s)

/-- The head of the deviation queue removed (R160, R166). -/
def removeHead (s : State) : State :=
  let r := { s.report with deviations := s.report.deviations.tail }
  { s with report := refreshAttention s.port.image.attention r }

/-- TAKE DEVIATION in RUN (R160). -/
def takeHead (s : State) : CommandEffect :=
  match s.report.deviations with
  | d :: _ => done (deviationOctets d) (removeHead s)
  | [] => refuse .empty s

/-- TAKE DEVIATION. -/
def execTakeDeviation (p : SelectPeriod) (s : State) : Host.Outcome State Fault Refusal :=
  .next (hostCommand p 0 (inRun s) takeHead s)

/-- An entry accepted and placed; what is due fires before the answer (R132, R135, R137). -/
def acceptEntry (f : LoadFields) (s : State) : State :=
  runDeadlines { s with checker := placeEntry s.port.image f s.checker }

/-- The checks of R131 that look beyond the fields' ranges. -/
def loadAllowed (f : LoadFields) (s : State) : Bool :=
  decide (f.origin ≠ s.port.image.station) && predecessorOk f s.checker &&
    deadlineAhead s.port.image s.time.date f

/-- LOAD ENTRY in RUN, for a slot of the table (R131, R132). -/
def loadSlot (slot : Fin 256) (p : List Octet) (s : State) : CommandEffect :=
  if (s.checker.slots[slot]).isSome then refuse .state s
  else
    match loadFields slot p with
    | some f => if loadAllowed f s then done [] (acceptEntry f s) else refuse .range s
    | none => refuse .range s

/-- A command that names a slot of the table, refused with RANGE for a slot above 255. -/
def withSlot (n : Nat) (command : Fin 256 → State → CommandEffect) (s : State) : CommandEffect :=
  match place 256 n with
  | some slot => command slot s
  | none => refuse .range s

/-- LOAD ENTRY. -/
def execLoadEntry (p : SelectPeriod) (s : State) : Host.Outcome State Fault Refusal :=
  .next (hostCommand p 27 (inRun s)
    (withSlot (field p.params 0 2) fun slot => loadSlot slot p.params) s)

/-- CANCEL ENTRY in RUN, for a slot of the table (R144). -/
def cancelAt (slot : Fin 256) (s : State) : CommandEffect :=
  if (s.checker.slots[slot]).isSome then done [] { s with checker := cancelSlot slot s.checker } else refuse .state s

/-- CANCEL ENTRY. -/
def execCancelEntry (p : SelectPeriod) (s : State) : Host.Outcome State Fault Refusal :=
  .next (hostCommand p 2 (inRun s) (withSlot (field p.params 0 2) cancelAt) s)

/-- READ ENTRY in RUN, for a slot of the table (R153). -/
def readSlot (slot : Fin 256) (s : State) : CommandEffect := done (entryOctets slot s.checker.slots[slot]) s

/-- READ ENTRY. -/
def execReadEntry (p : SelectPeriod) (s : State) : Host.Outcome State Fault Refusal :=
  .next (hostCommand p 2 (inRun s) (withSlot (field p.params 0 2) readSlot) s)

/-- READ HEARD in RUN (R124). -/
def readOrigin (origin : Nat) (s : State) : CommandEffect :=
  match placeFromOne 62 origin with
  | some k => done (heardOctets origin s.line.heard[k]) s
  | none => refuse .range s

/-- READ HEARD. -/
def execReadHeard (p : SelectPeriod) (s : State) : Host.Outcome State Fault Refusal :=
  .next (hostCommand p 1 (inRun s) (readOrigin (field p.params 0 1)) s)

/-- The conditions named are cleared (R164); bit `i` of the set names condition `i` (R198). -/
def clearNamed (set : Nat) (r : ReportUnit) : ReportUnit :=
  { r with urgent := Vector.ofFn fun i => if set.testBit i.val then urgentClear else r.urgent[i] }

/-- CLEAR URGENT in RUN (R164). -/
def clearConditions (set : Nat) (s : State) : CommandEffect :=
  if set < 128 then
    done [] { s with report := refreshAttention s.port.image.attention (clearNamed set s.report) }
  else refuse .range s

/-- CLEAR URGENT. -/
def execClearUrgent (p : SelectPeriod) (s : State) : Host.Outcome State Fault Refusal :=
  .next (hostCommand p 1 (inRun s) (clearConditions (field p.params 0 1)) s)

/-- The reference armed with a date (R65). -/
def armReference (d : Date) (s : State) : State :=
  let arming : Arming := { armedDate := d, lastExpected := none, pulses := 0, lastPulse := s.time.elapsed }
  { s with agreement := { s.agreement with arming := some arming, referenceGood := 0 } }

/-- SET TIME in RUN (R65). -/
def setTimeTo (d : Date) (s : State) : CommandEffect :=
  if referenceTerminal s.port.image = none then refuse .state s
  else if dateInRange d then done [] (armReference d s)
  else refuse .range s

/-- SET TIME. -/
def execSetTime (p : SelectPeriod) (s : State) : Host.Outcome State Fault Refusal :=
  .next (hostCommand p 7 (inRun s) (setTimeTo (dateField p.params 0)) s)

/-- SET DIAL on a configured line (R182): the record takes the position, and an ACTIVE line decides (R176). -/
def dialLine (line : Fin 4) (position : Nat) (s : State) : State :=
  let cause := suspendingCause s.agreement.timeState s.supply
  decideLine line { s with clocks := s.clocks.set line (placeDial cause position s.clocks[line]) }

/-- SET DIAL in RUN, for a line 1 to 4 (R182). -/
def setDialAt (position : Nat) (line : Fin 4) (s : State) : CommandEffect :=
  match s.port.image.lines[line] with
  | none => refuse .state s
  | some c =>
    if s.clocks[line].pulse.isSome then refuse .state s
    else if dialSteps c ≤ position then refuse .range s
    else done [] (dialLine line position s)

/-- SET DIAL in RUN (R182). -/
def setDialTo (line position : Nat) (s : State) : CommandEffect :=
  match placeFromOne 4 line with
  | some k => setDialAt position k s
  | none => refuse .range s

/-- SET DIAL. -/
def execSetDial (p : SelectPeriod) (s : State) : Host.Outcome State Fault Refusal :=
  .next (hostCommand p 3 (inRun s) (setDialTo (field p.params 0 1) (field p.params 1 2)) s)

/-- ANSWER_ONLY_SELECT_PERIOD (R187): the held answer is clocked out and discarded, and no command is taken. -/
def execAnswerOnlySelectPeriod (octets : Nat) (early : Bool) (s : State) : Host.Outcome State Fault Refusal :=
  .next (if periodDiscarded early s then discardPeriod octets s else clockOutAnswer octets s)

/-- A command of R188 with its parameter octets. -/
def execPortCommand (c : PortCommand) (p : SelectPeriod) (s : State) : Host.Outcome State Fault Refusal :=
  match c with
  | .configure => execConfigure p s
  | .start => execStart p s
  | .restart => execRestart p s
  | .readStatus => execReadStatus p s
  | .takeEvents => execTakeEvents p s
  | .peekEvent => execPeekEvent p s
  | .takeDeviation => execTakeDeviation p s
  | .loadEntry => execLoadEntry p s
  | .cancelEntry => execCancelEntry p s
  | .readEntry => execReadEntry p s
  | .readHeard => execReadHeard p s
  | .clearUrgent => execClearUrgent p s
  | .setTime => execSetTime p s
  | .setDial => execSetDial p s

/-- A period whose octets are no command: more than 72 are refused with FULL, a code that names no command with RANGE
(R187). -/
def refusePeriod (octets : List Octet) (early : Bool) (s : State) : State :=
  selectCommand early octets.length false false (refuse .range) s

/-- UNKNOWN_COMMAND (R187, R198): the octets of a select period, read by their command code. Octets that do name a
command, and a period without an octet, do what they name (assumption log 1). -/
def execUnknownCommand (octets : List Octet) (early : Bool) (s : State) : Host.Outcome State Fault Refusal :=
  match namedCommand octets with
  | some c => execPortCommand c { params := octets.tail, early := early } s
  | none => if octets = [] then execAnswerOnlySelectPeriod 0 early s else .next (refusePeriod octets early s)

end Sys2Proof.Machine
end

