-- ==== Sys2Proof/Machine/Schedule.lean ====
section
/-! DEFINITION. What the station does when no command waits (assumption log 1): the time-driven events that have come
about are put into its own queue one by one, and when none has, one oscillator microsecond passes. -/

namespace Sys2Proof.Machine

/-- A command that has come about, as a list. -/
def whenDue (due : Bool) (c : Instr) : List Instr := if due then [c] else []

/-- The events of the time base and the clock lines that have come about (R1, R6, R9, R174, R176, R177). -/
def dueTimeEvents (s : State) : List Instr :=
  whenDue (qualificationDue s) .qualificationEnd ++ whenDue (correctionEnded s.time) .correctionSecondEnd ++
  whenDue (holdoverEntryDue s) .holdoverEntry ++ whenDue s.time.markDue.isSome .secondMark ++
  (List.finRange 4).flatMap (fun k => whenDue s.time.boundaryDue[k] (.stepBoundary k)) ++
  (List.finRange 4).flatMap (fun k => whenDue (endedPulse s k).isSome (.pulseEnd k)) ++
  (List.finRange 4).flatMap (fun k => whenDue (pulseDue s k) (.pulseStart k))

/-- The events of the other blocks that have come about in RUN (R30, R41, R58, R61, R67, R75, R89, R119, R137). -/
def dueRunEvents (s : State) : List Instr :=
  whenDue (presenceIsDue s) .presenceDue ++ whenDue (silenceTimerDue s) .silenceTimerExpiry ++
  whenDue (agingDue s) .holdoverAging ++ whenDue (referenceLossDue s) .referenceLoss ++
  (List.finRange 62).flatMap (fun k => whenDue (silenceDue s k) (.silenceExpiry k)) ++
  (List.finRange 40).flatMap (fun t => whenDue (settleDue s t) (.settleExpiry t)) ++
  (List.finRange 8).flatMap (fun k => whenDue (limitDue s k) (.limitExpiry k)) ++
  whenDue (fireDue .opening s) .openFire ++ whenDue (fireDue .miss s) .missFire ++
  whenDue (!s.line.txQueue.isEmpty && readyToBegin s) .beginReadyFrame

/-- The time-driven events that have come about at this instant. -/
def dueEvents (s : State) : List Instr := dueTimeEvents s ++ if inRun s then dueRunEvents s else []

/-- Of several events that fall in one microsecond, the one taken first is a free value (assumption log 3). -/
def chooseEvent (free : Nat) (first : Instr) (rest : List Instr) : Instr :=
  if rest.isEmpty then first
  else (first :: rest).getD (Config.coincidence free % (rest.length + 1)) first

/-- How many free values that choice reads. -/
def choiceCount (rest : List Instr) : Nat := if rest.isEmpty then 0 else 1

/-- One oscillator microsecond passes (R2, R4 to R6). -/
def passMicrosecond (s : State) : State := { s with time := advanceTimeBase s.port.image.lines s.time }

/-- The station with no command waiting. -/
def idleStep (s : State) : State :=
  match dueEvents s with
  | [] => passMicrosecond s
  | c :: rest => { s with pending := [chooseEvent s.freeCount c rest], freeCount := s.freeCount + choiceCount rest }

end Sys2Proof.Machine
end

