-- ==== Sys2Proof/Machine/Dispatch.lean ====
section
/-! DEFINITION. The meaning of each command: one arm for each constructor of `Instr`. -/

namespace Sys2Proof.Machine

def exec (i : Instr) (s : State) : Host.Outcome State Fault Refusal :=
  match i with
  | .powerOn => Sys2Proof.Machine.execPowerOn s
  | .qualificationEnd => Sys2Proof.Machine.execQualificationEnd s
  | .secondMark => Sys2Proof.Machine.execSecondMark s
  | .correctionSecondEnd => Sys2Proof.Machine.execCorrectionSecondEnd s
  | .holdoverEntry => Sys2Proof.Machine.execHoldoverEntry s
  | .presenceDue => Sys2Proof.Machine.execPresenceDue s
  | .beginReadyFrame => Sys2Proof.Machine.execBeginReadyFrame s
  | .frameOutcome how => Sys2Proof.Machine.execFrameOutcome how s
  | .receiveTimeFrame f => Sys2Proof.Machine.execReceiveTimeFrame f s
  | .receiveNotice f => Sys2Proof.Machine.execReceiveNotice f s
  | .receivePresence f => Sys2Proof.Machine.execReceivePresence f s
  | .receiveBadFrame why => Sys2Proof.Machine.execReceiveBadFrame why s
  | .silenceExpiry peer => Sys2Proof.Machine.execSilenceExpiry peer s
  | .silenceTimerExpiry => Sys2Proof.Machine.execSilenceTimerExpiry s
  | .holdoverAging => Sys2Proof.Machine.execHoldoverAging s
  | .referencePulse => Sys2Proof.Machine.execReferencePulse s
  | .referenceLoss => Sys2Proof.Machine.execReferenceLoss s
  | .edge terminal level => Sys2Proof.Machine.execEdge terminal level s
  | .settleExpiry terminal => Sys2Proof.Machine.execSettleExpiry terminal s
  | .limitExpiry pair => Sys2Proof.Machine.execLimitExpiry pair s
  | .openFire => Sys2Proof.Machine.execOpenFire s
  | .missFire => Sys2Proof.Machine.execMissFire s
  | .supplyChange supply => Sys2Proof.Machine.execSupplyChange supply s
  | .stepBoundary line => Sys2Proof.Machine.execStepBoundary line s
  | .pulseStart line => Sys2Proof.Machine.execPulseStart line s
  | .pulseEnd line => Sys2Proof.Machine.execPulseEnd line s
  | .unknownCommand octets early => Sys2Proof.Machine.execUnknownCommand octets early s
  | .configure p => Sys2Proof.Machine.execConfigure p s
  | .start p => Sys2Proof.Machine.execStart p s
  | .restart p => Sys2Proof.Machine.execRestart p s
  | .readStatus p => Sys2Proof.Machine.execReadStatus p s
  | .takeEvents p => Sys2Proof.Machine.execTakeEvents p s
  | .peekEvent p => Sys2Proof.Machine.execPeekEvent p s
  | .takeDeviation p => Sys2Proof.Machine.execTakeDeviation p s
  | .loadEntry p => Sys2Proof.Machine.execLoadEntry p s
  | .cancelEntry p => Sys2Proof.Machine.execCancelEntry p s
  | .readEntry p => Sys2Proof.Machine.execReadEntry p s
  | .readHeard p => Sys2Proof.Machine.execReadHeard p s
  | .clearUrgent p => Sys2Proof.Machine.execClearUrgent p s
  | .setTime p => Sys2Proof.Machine.execSetTime p s
  | .setDial p => Sys2Proof.Machine.execSetDial p s
  | .dominantLeadIn mark => Sys2Proof.Machine.execDominantLeadIn mark s
  | .lineIdle => Sys2Proof.Machine.execLineIdle s
  | .answerOnlySelectPeriod octets early => Sys2Proof.Machine.execAnswerOnlySelectPeriod octets early s

end Sys2Proof.Machine
end

