-- ==== Sys2Proof/Safety.lean ====
section
/-! DEFINITION. What a sound state of the SD-40 is: one predicate for each promise that the manual makes of every
state, in the terms the obligations use; and what a frame end, an own mark, an offset and the octets on the service port
are, as the obligations speak of them. -/

namespace Sys2Proof.Machine

/-! ## Time base -/

/-- Centre time, trim, slew and correction second within the ranges of section 1.2 and of R8, R15, and an outlier
history that never holds 3 offsets at the end of a computation (R16). -/
def TimeBaseLegal (t : TimeBase) : Prop :=
  t.date.day < 65536 ∧ t.date.us < dayLength ∧ t.fraction < 64 ∧ t.trim.natAbs ≤ 12800 ∧ t.slew.natAbs ≤ 500 ∧
    t.outliers.length ≤ 2 ∧ (∀ c, t.correction = some c → c.total.natAbs ≤ 44800 ∧ 1 ≤ c.index)

/-- Qualification and station state go together (R1, R186), and the time state is NOT STARTED exactly outside RUN
(R48, R64). -/
def StationLegal (s : State) : Prop :=
  (s.port.station = .notQualified ↔ s.time.qualified = false) ∧
    (s.port.station = .run ↔ s.agreement.timeState ≠ .notStarted)

/-! ## Agreement controller -/

/-- The grade that the time state allows (R47), and the parts that a time state holds or lacks (section 3.1). -/
def GradeLegal (a : Agreement) : Prop :=
  match a.timeState with
  | .notStarted | .acquiring => a.grade = 15
  | .selfTimed => a.grade = 14
  | .agreed => a.sourceGrade.map agreedGrade = some a.grade
  | .referenced => a.grade = 1
  | .holdover => ∃ h, a.holdover = some h ∧ min 13 (h.grade + 1) ≤ a.grade ∧ a.grade ≤ 13

/-! ## Line controller -/

/-- The order of the transmit queue (R39): by header value, and among equal ones by entry order. -/
def queuedBefore (a b : TxItem) : Prop :=
  itemStrength a < itemStrength b ∨ (itemStrength a = itemStrength b ∧ a.order < b.order)

/-- The transmit queue of R38, R39 and R41: at most 16 items, at most one PRESENCE item, empty when WITHDRAWN, and in the
order of R39, the next entry order being above every one given. -/
def TransmitQueueLegal (l : LineController) : Prop :=
  l.txQueue.length ≤ 16 ∧ (l.txQueue.filter isPresenceItem).length ≤ 1 ∧ (l.standing = .withdrawn → l.txQueue = []) ∧
    l.txQueue.Pairwise queuedBefore ∧ ∀ it ∈ l.txQueue, it.order < l.nextOrder

/-- The standing follows the fault score (R35, R36), and the good-frame run is kept while WITHDRAWN alone (R38). -/
def StandingLegal (l : LineController) : Prop :=
  l.score ≤ 255 ∧ (l.standing = .full → l.score ≤ 95) ∧ (l.standing = .quiet → 96 ≤ l.score ∧ l.score ≤ 191) ∧
    (l.standing = .withdrawn → 192 ≤ l.score) ∧ (l.goodRun.isSome = true ↔ l.standing = .withdrawn)

/-- A heard entry holds a silence expiry exactly while it is PRESENT (R118, R119). -/
def HeardLegal (l : LineController) : Prop :=
  ∀ k : Fin 62, (l.heard[k].silenceExpiry.isSome = true ↔ l.heard[k].presence = .present)

/-! ## Event queue -/

/-- At most 512 records (R97, R100); losses wait for their GAP record only while the queue is full (R102). -/
def EventQueueLegal (q : EventQueue) : Prop :=
  q.records.length ≤ 512 ∧ (∀ l, q.lost = some l → q.records.length = 512 ∧ 1 ≤ l.tally ∧ l.tally ≤ 65535)

/-! ## Timetable checker -/

/-- The items of a slot in the deadline list. -/
def itemsOf (slot : Fin 256) (c : Checker) : List Deadline := c.deadlines.filter fun d => d.slot == slot

/-- The items that an entry calls for (R136): PENDING its OPEN item, ARMED its MISS item, every other none. -/
def itemsCalled (slot : Fin 256) : Option CheckEntry → List Deadline
  | some e =>
    match e.status, e.dates with
    | .pending, some d => [{ date := d.opening, slot := slot, kind := .opening }]
    | .armed, some d => [{ date := d.missDeadline, slot := slot, kind := .miss }]
    | _, _ => []
  | none => []

/-- An entry that is PENDING or ARMED has its dates (R130). -/
def datesKept : Option CheckEntry → Bool
  | some e => (e.status != .pending && e.status != .armed) || e.dates.isSome
  | none => true

/-- Each PENDING or ARMED entry has exactly one item, and every item belongs to one (R136). -/
def DeadlinesLegal (c : Checker) : Prop :=
  ∀ slot : Fin 256, itemsOf slot c = itemsCalled slot c.slots[slot] ∧ datesKept c.slots[slot] = true

/-- The deadline list stands in the order of R136: by date, and among equal dates by slot. -/
def DeadlinesOrdered (c : Checker) : Prop := c.deadlines.Pairwise fun a b => deadlineBefore a b = true

/-- The dates that order the list in a step from `s` to `t` lie in the half cycle that begins at `base`: those of the
entries that have an item before the step, and those of the entries that the step changes. Dates further apart have no
order on the cycle of R7. -/
def DatesWithinHalfCycle (base : Date) (s t : Checker) : Prop :=
  ∀ (slot : Fin 256) (e : CheckEntry) (d : EntryDates),
    ((s.slots[slot] = some e ∧ (e.status = .pending ∨ e.status = .armed)) ∨
      (t.slots[slot] = some e ∧ t.slots[slot] ≠ s.slots[slot])) →
    e.dates = some d → 0 ≤ dateDiff d.opening base ∧ 0 ≤ dateDiff d.missDeadline base

/-! ## Report unit -/

/-- ATTENTION is what the urgent flags and the head of the deviation queue call for (R166). -/
def AttentionLegal (s : State) : Prop := s.report.attention = attentionCalled s.port.image.attention s.report

/-- At most 64 deviation records, by grade, highest first (R158). -/
def DeviationsLegal (r : ReportUnit) : Prop :=
  r.deviations.length ≤ 64 ∧ r.deviations.Pairwise fun a b => b.grade ≤ a.grade

/-! ## Clock lines -/

/-- A line record of R170: the drive terminals carry the pulse in flight and nothing else (R177), a pulse is in flight
in ACTIVE and SUSPENDED alone, the dial position is absent in UNSET alone, and FAULT stands at the third unproven
pulse (R180). -/
def ClockLineLegal (l : ClockLine) : Prop :=
  (l.driveA = true ↔ l.pulse.map (·.polarity) = some .a) ∧ (l.driveB = true ↔ l.pulse.map (·.polarity) = some .b) ∧
    (l.pulse.isSome = true → l.state = .active ∨ l.state = .suspended) ∧ (l.dial = none ↔ l.state = .unset) ∧
    l.unproven ≤ 3 ∧ (l.state = .fault ↔ l.unproven = 3)

/-- Every line record is legal, and that of a line NOT CONFIGURED keeps the power-on values (R170). -/
def ClocksLegal (s : State) : Prop :=
  ∀ k : Fin 4, ClockLineLegal s.clocks[k] ∧ (s.port.image.lines[k] = none → s.clocks[k] = clockLinePowerOn)

/-- No line is ACTIVE while a suspending cause holds, and none SUSPENDED while none does (R173). -/
def SuspensionLegal (s : State) : Prop :=
  ∀ k : Fin 4, if suspendingCause s.agreement.timeState s.supply then s.clocks[k].state ≠ .active
    else s.clocks[k].state ≠ .suspended

/-! ## Service port -/

/-- An item of the image within the ranges of R189, R85, R125 and R169. -/
def ItemLegal : ImageItem → Prop
  | .station n => 1 ≤ n ∧ n ≤ 62
  | .lineDelay n => n ≤ 63
  | .watchLead n => n ≤ 3600
  | .grace n => n ≤ 5000
  | .silenceLimit n => 2 ≤ n ∧ n ≤ 60
  | .attention n => n ≤ 8
  | .terminal _ (.input settle _ priority) => 1 ≤ settle ∧ settle ≤ 255 ∧ priority ≤ 15
  | .pair _ (some c) => 1 ≤ c.limitTenths ∧ c.limitTenths ≤ 300
  | .line _ (some c) =>
    (c.stepSeconds = 30 ∨ c.stepSeconds = 60) ∧ 100 ≤ c.widthMs ∧ c.widthMs ≤ 2000 ∧ c.widthMs % 10 = 0 ∧
      1 ≤ c.spacingSeconds ∧ c.spacingSeconds ≤ 10 ∧ c.holdMinutes ≤ 120
  | .terminal _ _ | .pair _ none | .line _ none | .accept _ _ => True

/-- Every item of the image within the ranges of R189. -/
def ImageLegal (img : Image) : Prop :=
  1 ≤ img.station ∧ img.station ≤ 62 ∧ img.lineDelay ≤ 63 ∧ img.watchLead ≤ 3600 ∧ img.grace ≤ 5000 ∧
    2 ≤ img.silenceLimit ∧ img.silenceLimit ≤ 60 ∧ img.attention ≤ 8 ∧
    (∀ t : Fin 40, ItemLegal (.terminal t img.terminals[t])) ∧ (∀ k : Fin 8, ItemLegal (.pair k img.pairs[k])) ∧
    (∀ k : Fin 4, ItemLegal (.line k img.lines[k])) ∧ (∀ k : Fin 16, ItemLegal (.accept k img.acceptance[k]))

/-- A clock line's terminals: drive A, drive B and proving (R169). -/
def LineNames (c : ClockConfig) (t : Fin 40) : Prop := t = c.driveA ∨ t = c.driveB ∨ t = c.proving

/-- An item of class 7 fails a check of START (R191): a second REFERENCE, or a CLOCK or PROVING that no configured line
names. -/
def TerminalFails (img : Image) (t : Fin 40) : Prop :=
  (img.terminals[t] = .reference ∧ ∃ u : Fin 40, u < t ∧ img.terminals[u] = .reference) ∨
    ((img.terminals[t] = .clock ∨ img.terminals[t] = .proving) ∧
      ∀ (k : Fin 4) (c : ClockConfig), img.lines[k] = some c → ¬ LineNames c t)

/-- An item of class 8 fails a check of START (R191): an input of a configured pair is no INPUT terminal. -/
def PairFails (img : Image) (k : Fin 8) : Prop :=
  ∃ c, img.pairs[k] = some c ∧
    ((∀ settle cls priority, img.terminals[c.drive] ≠ .input settle cls priority) ∨
      ∀ settle cls priority, img.terminals[c.detection] ≠ .input settle cls priority)

/-- An item of class 9 fails a check of START (R191): a role that is not the one its terminal has, one terminal as both
drives, a terminal of a line of lower number, or a spacing below the pulse width plus 200 ms. -/
def LineFails (img : Image) (k : Fin 4) : Prop :=
  ∃ c, img.lines[k] = some c ∧
    (img.terminals[c.driveA] ≠ .clock ∨ img.terminals[c.driveB] ≠ .clock ∨ img.terminals[c.proving] ≠ .proving ∨
      c.driveA = c.driveB ∨
      (∃ (j : Fin 4) (lower : ClockConfig) (t : Fin 40), j < k ∧ img.lines[j] = some lower ∧ LineNames lower t ∧
        LineNames c t) ∨
      c.spacingSeconds * 1000 < c.widthMs + 200)

/-- The image passes the validation of START (R191): no item of the classes 7, 8 and 9 fails. -/
def ImagePasses (img : Image) : Prop :=
  (∀ t, ¬ TerminalFails img t) ∧ (∀ k, ¬ PairFails img k) ∧ ∀ k, ¬ LineFails img k

/-- The image is legal, and in RUN it passes the validation of START (R189, R191, R192). -/
def ConfigurationLegal (s : State) : Prop :=
  ImageLegal s.port.image ∧ (s.port.station = .run → ImagePasses s.port.image)

/-! ## Exchanges on the service port, as the obligations speak of them -/

/-- The state `s` with nothing changed but what a select period changes at the port itself (R187): the answer held,
the octets clocked out and the count of free values, as `t` has them. -/
def portExchange (s t : State) : State :=
  { s with port := { s.port with answer := t.port.answer, output := t.port.output }, freeCount := t.freeCount }

/-- A command completes by holding that answer, and changes nothing else (R187). -/
def AnswersWith (c : Instr) (s : State) (answer : List Octet) : Prop :=
  ∃ t, exec c s = .next t ∧ t.port.answer = some answer ∧ t = portExchange s t

/-- A row of the table of R188: the command, how many parameter octets it defines (R198), and whether it is taken in
CONFIG and in RUN. -/
structure PortRow where
  make : SelectPeriod → Instr
  count : Nat
  inConfig : Bool
  inRun : Bool

/-- The table of R188 but for CONFIGURE, whose count of octets is that of the item's class. -/
def portRows : List PortRow :=
  [⟨.start, 0, true, false⟩, ⟨.restart, 0, true, true⟩, ⟨.readStatus, 0, true, true⟩, ⟨.takeEvents, 1, false, true⟩,
    ⟨.peekEvent, 2, false, true⟩, ⟨.takeDeviation, 0, false, true⟩, ⟨.loadEntry, 27, false, true⟩,
    ⟨.cancelEntry, 2, false, true⟩, ⟨.readEntry, 2, false, true⟩, ⟨.readHeard, 1, false, true⟩,
    ⟨.clearUrgent, 1, false, true⟩, ⟨.setTime, 7, false, true⟩, ⟨.setDial, 3, false, true⟩]

/-- The command of a row is taken in a station state (R188). -/
def PortRow.takenIn (r : PortRow) : StationState → Bool
  | .config => r.inConfig
  | .run => r.inRun
  | .notQualified => false

/-- The command that takes a due item of that kind at the head of the deadline list (R137). -/
def fireCommand : DeadlineKind → Instr
  | .opening => .openFire
  | .miss => .missFire

/-- The fields of a LOAD ENTRY within the ranges of R129. -/
def LoadLegal (f : LoadFields) : Prop :=
  f.origin ≤ 63 ∧ f.channel ≤ 39 ∧ f.earlyMs ≤ 600000 ∧ f.lateMs ≤ 600000 ∧ f.grade ≤ 7 ∧
    match f.dueKind with
    | .absolute d => d.day ≤ 65535 ∧ d.us < dayLength
    | .relative ms => ms ≤ 3600000

/-! ## Parameter octets, field by field (R190, R198) -/

/-- How many octets follow the class octet of a CONFIGURE: the index and the value octets of the class. A class outside 1
to 10 takes any number. -/
def ConfigureForm : List Octet → Prop
  | [] => False
  | cls :: rest =>
    (cls.toNat ∈ [1, 2, 5, 6] → rest.length = 2) ∧ (cls.toNat ∈ [3, 4] → rest.length = 3) ∧
      (cls.toNat = 7 → rest.length = 5) ∧ (cls.toNat = 8 → rest.length = 6) ∧ (cls.toNat = 9 → rest.length = 10) ∧
      (cls.toNat = 10 → rest.length = 7)

/-- Class, index and value octets that give an item; octets that are not read may be any. -/
def ItemLayout (cls index : Nat) (values : List Octet) : ImageItem → Prop
  | .station n => cls = 1 ∧ index = 0 ∧ field values 0 1 = n
  | .lineDelay n => cls = 2 ∧ index = 0 ∧ field values 0 1 = n
  | .watchLead n => cls = 3 ∧ index = 0 ∧ field values 0 2 = n
  | .grace n => cls = 4 ∧ index = 0 ∧ field values 0 2 = n
  | .silenceLimit n => cls = 5 ∧ index = 0 ∧ field values 0 1 = n
  | .attention n => cls = 6 ∧ index = 0 ∧ field values 0 1 = n
  | .terminal t .unused => cls = 7 ∧ index = t.val ∧ field values 0 1 = 0
  | .terminal t (.input settle noticeClass priority) =>
    cls = 7 ∧ index = t.val ∧ field values 0 1 = 1 ∧ field values 1 1 = settle ∧
      field values 2 1 = (match noticeClass with | .none => 0 | .normal => 1 | .urgent => 2) ∧
      field values 3 1 = priority
  | .terminal t .clock => cls = 7 ∧ index = t.val ∧ field values 0 1 = 2
  | .terminal t .proving => cls = 7 ∧ index = t.val ∧ field values 0 1 = 3
  | .terminal t .reference => cls = 7 ∧ index = t.val ∧ field values 0 1 = 4
  | .pair k none => cls = 8 ∧ index = k.val + 1 ∧ field values 0 1 = 0
  | .pair k (some c) =>
    cls = 8 ∧ index = k.val + 1 ∧ field values 0 1 = 1 ∧ field values 1 1 = c.drive.val ∧
      field values 2 1 = c.detection.val ∧ field values 3 2 = c.limitTenths
  | .line k none => cls = 9 ∧ index = k.val + 1 ∧ field values 0 1 = 0
  | .line k (some c) =>
    cls = 9 ∧ index = k.val + 1 ∧ field values 0 1 = 1 ∧ field values 1 1 = c.driveA.val ∧
      field values 2 1 = c.driveB.val ∧ field values 3 1 = c.proving.val ∧ field values 4 1 = c.stepSeconds ∧
      field values 5 2 = c.widthMs ∧ field values 7 1 = c.spacingSeconds ∧ field values 8 1 = c.holdMinutes
  | .accept k none => cls = 10 ∧ index = k.val ∧ field values 0 1 = 0
  | .accept k (some a) =>
    cls = 10 ∧ index = k.val ∧ field values 0 1 = 1 ∧ field values 1 1 = a.originValue.toNat ∧
      field values 2 1 = a.originMask.toNat ∧ field values 3 1 = a.channelValue.toNat ∧
      field values 4 1 = a.channelMask.toNat ∧ field values 5 1 = (if a.offer = true then 0 else 1)

/-- The 27 parameter octets of LOAD ENTRY that give its fields; octets that are not read may be any. -/
def LoadLayout (octets : List Octet) (f : LoadFields) : Prop :=
  field octets 0 2 = f.slot.val ∧ field octets 2 1 = f.origin ∧ field octets 3 1 = f.channel ∧
    field octets 4 1 = (match f.state with | .off => 0 | .on => 1 | .any => 2) ∧
    (match f.dueKind with
      | .absolute d => field octets 5 1 = 0 ∧ field octets 6 2 = d.day ∧ field octets 8 5 = d.us
      | .relative ms => field octets 5 1 = 1 ∧ field octets 13 4 = ms) ∧
    field octets 17 3 = f.earlyMs ∧ field octets 20 3 = f.lateMs ∧ field octets 23 1 = f.grade ∧
    match f.predecessor with
      | none => field octets 24 1 = 0
      | some p => field octets 24 1 = 1 ∧ field octets 25 2 = p.val

/-- A pulse in flight keeps the item from being written (R190): a line's own, or that of a line whose terminal would change
its role. -/
def ItemHeld (s : State) : ImageItem → Prop
  | .line k _ => s.clocks[k].pulse ≠ none
  | .terminal t v =>
    roleCode v ≠ roleCode s.port.image.terminals[t] ∧
      ∃ (k : Fin 4) (c : ClockConfig), s.clocks[k].pulse ≠ none ∧ s.port.image.lines[k] = some c ∧ LineNames c t
  | _ => False

/-! ## Records on the service port, field by field (R197) -/

/-- A date stands at octet `i`: two octets of day, five of µs of day. -/
def DateAt (octets : List Octet) (i : Nat) (d : Date) : Prop :=
  field octets i 2 = d.day % 65536 ∧ field octets (i + 2) 5 = d.us % 1099511627776

/-- An epoch stands at octet `i`, and its date after it. -/
def EpochDateAt (octets : List Octet) (i : Nat) (d : DatedEpoch) : Prop :=
  field octets i 1 = d.epoch.toNat ∧ DateAt octets (i + 1) d.date

/-- Every octet from `i` to the one before `j` is 0. -/
def ZerosFrom (octets : List Octet) (i j : Nat) : Prop := ∀ n, i ≤ n → n < j → field octets n 1 = 0

/-- Octets 2 and 12 to 31 of an event record, by its kind. -/
def EventPartLayout (octets : List Octet) : EventBody → Prop
  | .start cause =>
    field octets 2 1 = 1 ∧ field octets 12 1 = causeCode cause ∧ ZerosFrom octets 13 32
  | .stateAtStart channel on =>
    field octets 2 1 = 2 ∧ field octets 12 1 = channel % 256 ∧ field octets 13 1 = (if on = true then 1 else 0) ∧
      ZerosFrom octets 14 32
  | .stateChange channel on bounces broadcast noticeSeq =>
    field octets 2 1 = 3 ∧ field octets 12 1 = channel % 256 ∧ field octets 13 1 = (if on = true then 1 else 0) ∧
      field octets 14 2 = bounces % 65536 ∧ field octets 16 1 = broadcastCode broadcast ∧
      (∀ n, noticeSeq = some n → field octets 17 1 = n.toNat ∧ field octets 18 1 = 1) ∧
      (noticeSeq = none → field octets 17 1 = 0 ∧ field octets 18 1 = 0) ∧ ZerosFrom octets 19 32
  | .chatter channel bounces =>
    field octets 2 1 = 4 ∧ field octets 12 1 = channel % 256 ∧ field octets 13 1 = 0 ∧
      field octets 14 2 = bounces % 65536 ∧ ZerosFrom octets 16 32
  | .movement pair verdict start duration =>
    field octets 2 1 = 5 ∧ field octets 12 1 = pair % 256 ∧ field octets 13 1 = verdictCode verdict ∧
      EpochDateAt octets 15 start ∧
      (∀ us, duration = some us → field octets 14 1 = 1 ∧ field octets 23 6 = us % 281474976710656) ∧
      (duration = none → field octets 14 1 = 0 ∧ field octets 23 6 = 0) ∧ ZerosFrom octets 29 32
  | .timeStep oldDate newDate =>
    field octets 2 1 = 6 ∧ DateAt octets 12 oldDate ∧ DateAt octets 19 newDate ∧ ZerosFrom octets 26 32
  | .gap lost first last =>
    field octets 2 1 = 7 ∧ field octets 12 2 = lost % 65536 ∧ EpochDateAt octets 14 first ∧
      EpochDateAt octets 22 last ∧ ZerosFrom octets 30 32

/-- The 32 octets of an event record. -/
def EventLayout (octets : List Octet) (r : EventRecord) : Prop :=
  octets.length = 32 ∧ field octets 0 2 = r.seq.toNat ∧ field octets 3 1 = timeStateCode r.stamp.timeState ∧
    field octets 4 1 = r.stamp.epoch.toNat ∧ DateAt octets 5 r.stamp.date ∧ EventPartLayout octets r.body

/-- The 28 octets of a deviation record; the difference is in two's complement. -/
def DeviationLayout (octets : List Octet) (d : Deviation) : Prop :=
  octets.length = 28 ∧ field octets 0 2 = d.seq.toNat ∧ field octets 2 1 = deviationKindCode d.kind ∧
    field octets 3 1 = d.slot % 256 ∧ field octets 4 1 = d.grade % 256 ∧
    field octets 5 1 = (if d.doubt = true then 1 else 0) + (if d.observation.isSome = true then 2 else 0) ∧
    DateAt octets 6 d.due ∧
    (∀ o, d.observation = some o → field octets 13 1 = o.origin % 256 ∧ field octets 14 1 = o.epoch.toNat ∧
      DateAt octets 15 o.date ∧ (field octets 22 6 : Int) = o.differenceMs % 281474976710656) ∧
    (d.observation = none → ZerosFrom octets 13 28)

/-- The octets of a check entry that is not EMPTY. -/
def HeldEntryLayout (octets : List Octet) (e : CheckEntry) : Prop :=
  let relative := match e.dueKind with
    | .relative _ => true
    | .absolute _ => false
  field octets 1 1 = statusCode e.status ∧
    (∀ v, e.verdict = some v → field octets 2 1 = checkVerdictCode v) ∧ (e.verdict = none → field octets 2 1 = 0) ∧
    field octets 3 1 = (if e.predecessor.isSome = true then 1 else 0) + (if e.dates.isSome = true then 2 else 0) +
      (if e.armingDate.isSome = true then 4 else 0) + (if e.snapshot.isSome = true then 8 else 0) +
      (if e.matched.isSome = true then 16 else 0) + (if relative = true then 32 else 0) ∧
    field octets 4 1 = e.origin % 256 ∧ field octets 5 1 = e.channel % 256 ∧
    field octets 6 1 = subjectStateCode e.state ∧ field octets 7 1 = e.grade % 256 ∧
    (∀ p, e.predecessor = some p → field octets 8 1 = p.val) ∧ (e.predecessor = none → field octets 8 1 = 0) ∧
    (∀ ms, e.dueKind = .relative ms → field octets 9 4 = ms % 4294967296 ∧ ZerosFrom octets 19 26) ∧
    (∀ d, e.dueKind = .absolute d → field octets 9 4 = 0 ∧ DateAt octets 19 d) ∧
    field octets 13 3 = e.earlyMs % 16777216 ∧ field octets 16 3 = e.lateMs % 16777216 ∧
    (∀ d, e.dates = some d → DateAt octets 26 d.due ∧ DateAt octets 33 d.opening ∧ DateAt octets 40 d.missDeadline) ∧
    (e.dates = none → ZerosFrom octets 26 47) ∧
    (∀ d, e.armingDate = some d → DateAt octets 47 d) ∧ (e.armingDate = none → ZerosFrom octets 47 54) ∧
    (∀ n, e.snapshot = some n → field octets 54 2 = n % 65536) ∧ (e.snapshot = none → field octets 54 2 = 0) ∧
    (∀ m, e.matched = some m → field octets 56 1 = m.origin % 256 ∧ field octets 57 1 = m.epoch.toNat ∧
      DateAt octets 58 m.date) ∧
    (e.matched = none → ZerosFrom octets 56 65) ∧ field octets 65 1 = 0

/-- The 66 octets of a slot of the check table, EMPTY or not. -/
def EntryLayout (octets : List Octet) (slot : Fin 256) (entry : Option CheckEntry) : Prop :=
  octets.length = 66 ∧ field octets 0 1 = slot.val ∧ (entry = none → ZerosFrom octets 1 66) ∧
    ∀ e, entry = some e → HeldEntryLayout octets e

/-- The 16 octets of a heard entry. -/
def HeardLayout (octets : List Octet) (origin : Nat) (e : HeardEntry) : Prop :=
  octets.length = 16 ∧ field octets 0 1 = origin % 256 ∧ field octets 1 1 = presenceCode e.presence ∧
    field octets 2 1 = (if e.lastGood.isSome = true then 1 else 0) + (if e.lastSeq.isSome = true then 2 else 0) +
      (if e.lastPresence.isSome = true then 4 else 0) ∧
    (∀ t, e.lastGood = some t → field octets 3 6 = t.toNat) ∧ (e.lastGood = none → field octets 3 6 = 0) ∧
    (∀ n, e.lastSeq = some n → field octets 9 1 = n.toNat) ∧ (e.lastSeq = none → field octets 9 1 = 0) ∧
    field octets 10 2 = e.missed % 65536 ∧
    (∀ p, e.lastPresence = some p → field octets 12 1 = timeStateCode p.timeState ∧
      field octets 13 1 = p.grade.toNat ∧ field octets 14 1 = p.epoch.toNat ∧ field octets 15 1 = p.standing.toNat) ∧
    (e.lastPresence = none → ZerosFrom octets 12 16)

/-- The codes of R195 and R199 that READ STATUS returns. -/
def StatusCodes : Prop :=
  [TimeState.notStarted, .acquiring, .selfTimed, .agreed, .holdover, .referenced].map timeStateCode =
      [0, 1, 2, 3, 4, 5] ∧
    [Standing.full, .quiet, .withdrawn].map standingCode = [0, 1, 2] ∧
    [Supply.normal, .reduced].map supplyCode = [0, 1] ∧
    [ClockState.unset, .active, .suspended, .fault].map clockStateCode = [0, 1, 2, 3] ∧
    [Polarity.a, .b].map polarityCode = [0, 1]

/-- The codes of R195 and R197 that the records hold. -/
def RecordCodes : Prop :=
  [TimeState.notStarted, .acquiring, .selfTimed, .agreed, .holdover, .referenced].map timeStateCode =
      [0, 1, 2, 3, 4, 5] ∧
    [ResetCause.powerOn, .restart].map causeCode = [0, 1] ∧
    [Broadcast.notShared, .queued, .sent, .droppedFull, .droppedObjected, .droppedWithdrawn].map broadcastCode =
      [0, 1, 2, 3, 4, 5] ∧
    [Verdict.normal, .overtime, .lateEnd, .restarted].map verdictCode = [0, 1, 2, 3] ∧
    [DeviationKind.early, .late, .missed, .unobservable, .cleared].map deviationKindCode = [1, 2, 3, 4, 5] ∧
    [EntryStatus.waiting, .pending, .armed, .satisfied, .missed, .unobservable, .cleared, .void].map statusCode =
      [1, 2, 3, 4, 5, 6, 7, 8] ∧
    [CheckVerdict.onTime, .early, .late].map checkVerdictCode = [0, 1, 2] ∧
    [SubjectState.off, .on, .any].map subjectStateCode = [0, 1, 2] ∧
    [Presence.never, .present, .silent].map presenceCode = [0, 1, 2]

/-! ## Frame ends, as the obligations speak of them -/

/-- The date and epoch of this instant, as a raising bears them. -/
def presentDate (s : State) : DatedEpoch := { date := s.time.date, epoch := s.time.epoch }

/-- The records after DROPPED-WITHDRAWN was reported for each notice of a transmit queue, in queue order (R38, R43). -/
def recordsWithdrawn (items : List TxItem) (records : List EventRecord) : List EventRecord :=
  items.foldl (fun rs it =>
    match it.eventSeq with
    | some n => writeBroadcast .droppedWithdrawn n rs
    | none => rs) records

/-- The station enters WITHDRAWN with that score (R38). -/
def withdrawal (score : Nat) (s : State) : State :=
  raiseUrgent .lineWithdrawn (presentDate s) { s with
    line := { s.line with score := score, standing := .withdrawn, txQueue := [], goodRun := some 0 }
    events := { s.events with records := recordsWithdrawn s.line.txQueue s.events.records } }

/-- A score below 192 taken outside WITHDRAWN, with the standing it gives (R36). -/
def withScore (score : Nat) (s : State) : State :=
  { s with line := { s.line with score := score, standing := if score ≤ 95 then .full else .quiet } }

/-- A good frame has ended and is scored, and no block was handed it yet (R24, R34 to R36, R38): `mid` is that state.
`own` says that the frame bears the station's own origin. -/
def GoodFrameEnds (own : Bool) (s mid : State) : Prop :=
  let gap : State := { s with
    line := { s.line with condition := .gap, leadIn := none, remainder := none, objecting := false } }
  let run := s.line.goodRun.getD 0 + 1
  (own = false → s.line.remainder ≠ none → mid = gap) ∧
  (own = false → s.line.remainder = none → s.line.standing ≠ .withdrawn → s.line.score ≤ 192 →
    mid = withScore (s.line.score - 1) gap) ∧
  (own = false → s.line.remainder = none → s.line.standing = .withdrawn →
    (run < 128 → mid = { gap with line := { gap.line with goodRun := some run } }) ∧
    (128 ≤ run → mid = { gap with line := { gap.line with goodRun := none, score := 0, standing := .full } })) ∧
  (own = true → s.line.standing ≠ .withdrawn →
    mid = withdrawal 192 (raiseUrgent .duplicateStation (presentDate s)
      { gap with line := { gap.line with collisions := 0 } })) ∧
  (own = true → s.line.standing = .withdrawn →
    mid = raiseUrgent .duplicateStation (presentDate s) { gap with line := { gap.line with goodRun := some 0 } })

/-- A received frame can end now, and the start mark held, if any, proved as `mark` or not at all (R24, R25). -/
def FrameCanEnd (mark : StartMark) (s : State) : Prop :=
  s.line.condition ≠ .awaitRecessive ∧ s.line.ownFrame = none ∧
    ∀ li, s.line.leadIn = some li → li.mark = some mark ∨ li.mark = none

/-! ## What follows a change of time, as the obligations speak of it -/

/-- What a station does at its own mark on the line (R28, R51) and with its PRESENCE due point (R114), once it has closed
the own second: `mid` is the state then, and the contention takes its grade and its date. The model's choices: a start mark
held without a capture, as that of a lead-in inside a gap, is not joined (assumption log 10); nor is one that beat an own
short frame, whose start mark is not known once that frame is LOST (assumption log 14, 36). -/
def ContestsAtMark (second : Nat) (mid t : State) : Prop :=
  let l := mid.line
  let may := l.standing = .full ∧ contendingTimeState mid.agreement.timeState = true
  let begins := l.condition = .idle ∧ l.ownFrame = none
  let joins (c : Stamp) := l.condition = .frame ∧ l.ownFrame = none ∧ ∃ start,
    l.leadIn = some { mark := some .time, start := start, capture := some c } ∧
      elapsedSince mid.time.elapsed start ≤ 64
  let due := if second % 2 = 0 then some (mid.time.elapsed + usSpan 50000) else l.presenceDue
  let frameOf (c : Stamp) : OwnFrame :=
    { frame := .time (contestFrame (ownOrigin mid) mid.agreement.grade c), owner := .agreement }
  (may → begins → t = { mid with line := { l with
    condition := .frame
    leadIn := some { mark := some .time, start := mid.time.elapsed, capture := some (stampNow mid) }
    ownFrame := some (frameOf (stampNow mid))
    presenceDue := due } }) ∧
  (∀ c, may → joins c → t = { mid with line := { l with ownFrame := some (frameOf c), presenceDue := due } }) ∧
  (¬ may ∨ (¬ begins ∧ ∀ c, ¬ joins c) → t = { mid with line := { l with presenceDue := due } })

/-- What a change of centre time or of time state, made in `mid`, brings about at once (R137, R141, R173, R176): the
deadline list runs until no item is due, as the command of its due head runs it; every clock line is suspended or
resumed, and decides as PULSE_START does. Nothing else changes. That the suspension comes before the decision, where R173
lets either come first, is the model's choice (assumption log 9). -/
def FollowsTime (mid t : State) : Prop :=
  let cause := mid.supply = .reduced ∨ mid.agreement.timeState = .notStarted ∨ mid.agreement.timeState = .acquiring
  t = { mid with checker := t.checker, report := t.report, clocks := t.clocks } ∧
  dueDeadline t = none ∧
  (dueDeadline mid = none → t.checker = mid.checker ∧ t.report = mid.report) ∧
  (mid.port.station = .run → ∀ d, dueDeadline mid = some d →
    ∃ u, exec (fireCommand d.kind) mid = .next u ∧ t.checker = u.checker ∧ t.report = u.report) ∧
  ∃ u : State, u = { mid with clocks := u.clocks } ∧
    (∀ k : Fin 4, u.clocks[k] = { mid.clocks[k] with state := u.clocks[k].state }) ∧
    (∀ k : Fin 4, cause → u.clocks[k].state =
      (if mid.clocks[k].state = .active then .suspended else mid.clocks[k].state)) ∧
    (∀ k : Fin 4, ¬ cause → u.clocks[k].state =
      (if mid.clocks[k].state = .suspended then .active else mid.clocks[k].state)) ∧
    (∀ k : Fin 4, ∃ w, exec (.pulseStart k) u = .next w ∧ t.clocks[k] = w.clocks[k])

/-- An offset from a source, carried through the discipline computation and taken by the agreement controller, with all
that follows (R12, R19, R20, R54, R66): where it steps centre time, a second mark that waits is given first. That the
outcome moves the time state before the items due fire, and the lines are suspended before they decide, is the model's
choice (assumption log 8, 9). -/
def OffsetTaken (kind : SourceKind) (grade : Nat) (d : Int) (s t : State) : Prop :=
  let steps := (disciplineTime d s.agreement.timeState s.time).1 = .step
  ∃ m, (¬ steps ∨ s.time.markDue = none → m = s) ∧
    (steps → s.time.markDue ≠ none → exec .secondMark s = .next m) ∧
    FollowsTime { (discipline d m).2 with
      agreement := takeOutcome m.time.elapsed kind grade (discipline d m).1 m.agreement } t

/-! ## START -/

/-- What START offers to the event queue (R72, R103): the START marker, then one STATE AT START record for each INPUT
terminal, in ascending order. -/
def startBodies (s : State) : List EventBody :=
  .start s.events.cause ::
    ((List.finRange 40).filter fun t => isInput s.port.image.terminals[t]).map fun t =>
      .stateAtStart t.val s.pins.levels[t]

/-- Those records as the empty queue holds them: numbered from 0, with the START instant as their date (R98, R103). -/
def startRecords (s : State) : List EventRecord :=
  (startBodies s).zipIdx.map fun b =>
    { seq := BitVec.ofNat 16 b.2, stamp := { date := s.time.date, epoch := s.time.epoch, timeState := .acquiring },
      body := b.1 }

end Sys2Proof.Machine
end

