-- ==== Sys2Proof/Certificates/Slice0/Obligations.lean ====
section
/-! DEFINITION. The statements for the provers: what the commands and the whole station do, by the numbered rules of
spec/. Each docstring says which rules a statement formalises, and where it states a choice of the model. -/

open Sys2Proof Sys2Proof.Machine

/-- The step's one law: with a command waiting, the step is `exec` of the first on the state with the queue's rest. -/
def Obligations.StepTakesTheFrontCommand : Prop :=
  ∀ (c : Instr) (rest : List Instr) (s : State), s.pending = c :: rest → step s = exec c { s with pending := rest }

/-- What the model does on an empty queue (assumption log 1, 3): the elapsed count gains one (R2), or one of the
events that have come about is put into the queue. -/
def Obligations.IdleStationTicksOrTakesADueEvent : Prop :=
  ∀ s : State, s.pending = [] →
    (dueEvents s = [] → ∃ t, step s = .next t ∧ t.time.elapsed = s.time.elapsed + 1 ∧ t = { s with time := t.time }) ∧
    (dueEvents s ≠ [] → ∃ c ∈ dueEvents s, ∃ n, s.freeCount ≤ n ∧
      step s = .next { s with pending := [c], freeCount := n })

/-- No command stops the station (the manual names no fault), and no command's effect reaches the queue. That POWER_ON too
leaves the queue as it was is the model's choice (assumption log 23). -/
def Obligations.EveryCommandCompletesAndKeepsTheQueue : Prop :=
  ∀ (c : Instr) (s : State), ∃ t, exec c s = .next t ∧ t.pending = s.pending

/-- Every block at the power-on values its chapter gives. What stays (queue, pins, count of free values) is the
model's choice (assumption log 23). -/
def Obligations.PowerOnGivesThePowerOnValues : Prop :=
  ∀ s : State, ∃ t, exec .powerOn s = .next t ∧
    t = { State.reset with pending := s.pending, pins := s.pins, freeCount := s.freeCount } ∧
    (t.time.qualified = false ∧ t.time.elapsed = 0 ∧ t.time.date = ⟨0, 0⟩ ∧ t.time.fraction = 0 ∧ t.time.trim = 0 ∧
      t.time.slew = 0 ∧ t.time.correction = none ∧ t.time.epoch = 0 ∧ t.time.outliers = []) ∧
    (t.agreement.timeState = .notStarted ∧ t.agreement.grade = 15 ∧ t.agreement.sourceGrade = none ∧
      t.agreement.lineGood = 0 ∧ t.agreement.referenceGood = 0 ∧ t.agreement.withoutSource = 0 ∧
      t.agreement.holdover = none ∧ t.agreement.silenceTimer = none ∧ t.agreement.arming = none) ∧
    (t.line.score = 0 ∧ t.line.standing = .full ∧ t.line.collisions = 0 ∧ t.line.goodRun = none ∧
      t.line.txQueue = [] ∧ t.line.ownFrame = none ∧ t.line.ownSeq = 0 ∧ t.line.presenceDue = none ∧
      (∀ k : Fin 62, t.line.heard[k] = heardNever) ∧ (∀ k : Fin 16, t.line.hits[k] = 0)) ∧
    (∀ k : Fin 40, t.inputs[k].proven = none ∧ t.inputs[k].burst = none ∧ t.inputs[k].unstable = false) ∧
    (∀ k : Fin 8, t.pairs[k] = .idle) ∧
    (t.events.records = [] ∧ t.events.nextSeq = 0 ∧ t.events.lost = none ∧ t.events.cause = .powerOn) ∧
    ((∀ k : Fin 256, t.checker.slots[k] = none) ∧ t.checker.deadlines = [] ∧ t.checker.refused = 0 ∧
      t.checker.unmatched = 0) ∧
    (t.report.deviations = [] ∧ t.report.nextSeq = 0 ∧ t.report.displaced = 0 ∧ t.report.attention = false ∧
      (∀ k : Fin 7, t.report.urgent[k] = urgentClear)) ∧
    (∀ k : Fin 4, t.clocks[k].state = .unset ∧ t.clocks[k].dial = none ∧ t.clocks[k].nextPolarity = .a ∧
      t.clocks[k].pulse = none ∧ t.clocks[k].unproven = 0 ∧ t.clocks[k].lastStart = none) ∧
    (t.port.station = .notQualified ∧ t.port.answer = none ∧ t.port.image.station = 1 ∧
      t.port.image.lineDelay = 0 ∧ t.port.image.watchLead = 600 ∧ t.port.image.grace = 1500 ∧
      t.port.image.silenceLimit = 6 ∧ t.port.image.attention = 4 ∧
      (∀ k : Fin 40, t.port.image.terminals[k] = .unused) ∧ (∀ k : Fin 8, t.port.image.pairs[k] = none) ∧
      (∀ k : Fin 4, t.port.image.lines[k] = none) ∧ (∀ k : Fin 16, t.port.image.acceptance[k] = none))

/-- Every invariant of Safety.lean holds at reset. -/
def Obligations.ResetStateIsLegal : Prop :=
  State.reset.pending = [] ∧ TimeBaseLegal State.reset.time ∧ StationLegal State.reset ∧
    GradeLegal State.reset.agreement ∧ ConfigurationLegal State.reset ∧ TransmitQueueLegal State.reset.line ∧
    StandingLegal State.reset.line ∧ HeardLegal State.reset.line ∧
    EventQueueLegal State.reset.events ∧ DeadlinesLegal State.reset.checker ∧ DeadlinesOrdered State.reset.checker ∧
    AttentionLegal State.reset ∧ DeviationsLegal State.reset.report ∧ ClocksLegal State.reset ∧
    SuspensionLegal State.reset

/-- The held answer goes out once, most significant octet first, and no command is taken (R187). -/
def Obligations.AnswerOnlyPeriodClocksOutTheAnswerOnce : Prop :=
  ∀ (n : Nat) (s : State), s.port.station ≠ .notQualified →
    ∃ t, exec (.answerOnlySelectPeriod n false) s = .next t ∧ t.port.answer = none ∧ t.port.output.length = n ∧
      (∀ a, s.port.answer = some a → t.port.output.take a.length = a.take n) ∧
      (s.port.answer = none → t.port.output = List.replicate n 0xFF#8) ∧ t = portExchange s t

/-- In NOT-QUALIFIED the port takes no command and gives no answer (R186). -/
def Obligations.PeriodsBegunInNotQualifiedAreDiscarded : Prop :=
  ∀ (s : State) (early : Bool), s.port.station = .notQualified ∨ early = true →
    (∀ params, ∀ row ∈ portRows, exec (row.make { params := params, early := early }) s =
      .next { s with port := { s.port with output := List.replicate (params.length + 1) 0xFF#8 } }) ∧
    (∀ params, exec (.configure { params := params, early := early }) s =
      .next { s with port := { s.port with output := List.replicate (params.length + 1) 0xFF#8 } }) ∧
    (∀ octets, namesNoCommand octets = true → exec (.unknownCommand octets early) s =
      .next { s with port := { s.port with output := List.replicate octets.length 0xFF#8 } }) ∧
    (∀ n, exec (.answerOnlySelectPeriod n early) s =
      .next { s with port := { s.port with output := List.replicate n 0xFF#8 } })

/-- UNKNOWN_COMMAND and every command of R188: form first, then station state; a refused command changes nothing
(R187). In RUN a CONFIGURE of a class outside 1 to 10 is answered STATE, not the RANGE of R198: the model's choice of the
order of the two (assumption log 12). -/
def Obligations.CommandsAreRefusedByFormThenByStationState : Prop :=
  ∀ s : State, s.port.station ≠ .notQualified →
    (∀ code rest, 72 < (code :: rest).length ∨ code.toNat = 0 ∨ 14 < code.toNat →
      AnswersWith (.unknownCommand (code :: rest) false) s (if 72 < (code :: rest).length then [1, 3] else [1, 2])) ∧
    (∀ row ∈ portRows, ∀ params : List Octet,
      (72 < params.length + 1 → AnswersWith (row.make { params := params, early := false }) s [1, 3]) ∧
      (params.length + 1 ≤ 72 → params.length ≠ row.count →
        AnswersWith (row.make { params := params, early := false }) s [1, 2]) ∧
      (params.length = row.count → row.takenIn s.port.station = false →
        AnswersWith (row.make { params := params, early := false }) s [1, 1])) ∧
    (∀ params : List Octet,
      (72 < params.length + 1 → AnswersWith (.configure { params := params, early := false }) s [1, 3]) ∧
      (params.length + 1 ≤ 72 → configureForm params = false →
        AnswersWith (.configure { params := params, early := false }) s [1, 2]) ∧
      (params.length + 1 ≤ 72 → configureForm params = true → s.port.station = .run →
        AnswersWith (.configure { params := params, early := false }) s [1, 1]))

/-- CONFIGURE decided as R190 lists, and what a write changes besides the image (R127, R169). ATTENTION follows the
threshold at once (assumption log 28). -/
def Obligations.ConfigureWritesOneItemWhole : Prop :=
  ∀ (s : State) (params : List Octet), s.port.station = .config → params.length + 1 ≤ 72 →
    configureForm params = true →
    let gives (i : ImageItem) : Prop :=
      ItemLayout (field params 0 1) (field params 1 1) (params.drop 2) i ∧ ItemLegal i
    let img := s.port.image
    ((∀ i, ¬ gives i) → AnswersWith (.configure { params := params, early := false }) s [1, 2]) ∧
    (∀ i, gives i →
      (ItemHeld s i → AnswersWith (.configure { params := params, early := false }) s [1, 1]) ∧
      (¬ ItemHeld s i →
        ∃ t, exec (.configure { params := params, early := false }) s = .next t ∧ t.port.answer = some [0] ∧
          t.port.image = (match i with
            | .station n => { img with station := n }
            | .lineDelay n => { img with lineDelay := n }
            | .watchLead n => { img with watchLead := n }
            | .grace n => { img with grace := n }
            | .silenceLimit n => { img with silenceLimit := n }
            | .attention n => { img with attention := n }
            | .terminal k v => { img with terminals := img.terminals.set k v }
            | .pair k v => { img with pairs := img.pairs.set k v }
            | .line k v => { img with lines := img.lines.set k v }
            | .accept k v => { img with acceptance := img.acceptance.set k v }) ∧
          (∀ k : Fin 4, (∃ v, i = .line k v) → t.clocks[k] = clockLinePowerOn) ∧
          (∀ k : Fin 4, (¬ ∃ v, i = .line k v) → t.clocks[k] = s.clocks[k]) ∧
          (∀ k : Fin 16, (∃ v, i = .accept k v) → t.line.hits[k] = 0) ∧
          (∀ k : Fin 16, (¬ ∃ v, i = .accept k v) → t.line.hits[k] = s.line.hits[k]) ∧
          t.report.attention = attentionCalled t.port.image.attention s.report ∧
          t = { portExchange s t with
            port := { (portExchange s t).port with image := t.port.image }
            clocks := t.clocks
            line := { s.line with hits := t.line.hits }
            report := { s.report with attention := t.report.attention } }))

/-- The values of R194 at one instant, at the octets of R199, in its codes. -/
def Obligations.ReadStatusReturnsTheStatusOctets : Prop :=
  StatusCodes ∧ ∀ s : State, s.port.station ≠ .notQualified →
    let octets := statusOctets s
    AnswersWith (.readStatus { params := [], early := false }) s (0 :: octets) ∧
    octets.length = 162 ∧
    field octets 0 1 = (if s.port.station = .config then 1 else 2) ∧
    field octets 1 1 = s.port.image.station % 256 ∧
    field octets 2 1 = timeStateCode s.agreement.timeState ∧
    field octets 3 1 = s.agreement.grade % 256 ∧
    field octets 4 1 = s.time.epoch.toNat ∧
    field octets 5 2 = s.time.date.day % 65536 ∧
    field octets 7 5 = s.time.date.us % 1099511627776 ∧
    field octets 12 1 = s.time.fraction % 256 ∧
    field octets 13 2 = (BitVec.ofInt 16 s.time.trim).toNat ∧
    field octets 15 1 = standingCode s.line.standing ∧
    field octets 16 1 = s.line.score % 256 ∧
    field octets 17 1 = s.line.txQueue.length % 256 ∧
    (∀ k : Fin 16, field octets (18 + 2 * k.val) 2 = s.line.hits[k] % 65536) ∧
    field octets 50 2 = s.events.records.length % 65536 ∧
    field octets 52 2 = slotsInUse s.checker % 65536 ∧
    field octets 54 2 = s.checker.deadlines.length % 65536 ∧
    field octets 56 2 = s.checker.refused % 65536 ∧
    field octets 58 2 = s.checker.unmatched % 65536 ∧
    (∀ k : Fin 7,
      field octets (60 + 10 * k.val) 1 = (if s.report.urgent[k].flag = true then 1 else 0) ∧
      field octets (61 + 10 * k.val) 1 = s.report.urgent[k].count % 256 ∧
      (∀ d, s.report.urgent[k].first = some d →
        field octets (62 + 10 * k.val) 1 = d.epoch.toNat ∧ field octets (63 + 10 * k.val) 2 = d.date.day % 65536 ∧
        field octets (65 + 10 * k.val) 5 = d.date.us % 1099511627776) ∧
      (s.report.urgent[k].first = none → field octets (62 + 10 * k.val) 8 = 0)) ∧
    field octets 130 1 = s.report.deviations.length % 256 ∧
    field octets 131 2 = s.report.displaced % 65536 ∧
    field octets 133 1 = supplyCode s.supply ∧
    (∀ k : Fin 4,
      field octets (134 + 7 * k.val) 1 = (if s.port.image.lines[k].isSome = true then 1 else 0) ∧
      field octets (135 + 7 * k.val) 1 = clockStateCode s.clocks[k].state ∧
      field octets (136 + 7 * k.val) 1 =
        (if s.clocks[k].dial.isSome = true then 1 else 0) + (if s.clocks[k].pulse.isSome = true then 2 else 0) ∧
      field octets (137 + 7 * k.val) 2 = s.clocks[k].dial.getD 0 % 65536 ∧
      field octets (139 + 7 * k.val) 1 = polarityCode s.clocks[k].nextPolarity ∧
      field octets (140 + 7 * k.val) 1 = s.clocks[k].unproven % 256)

/-- START: the checks of R191 in their order, then the one action of R192 in its order, the line controller in the state of
R44 as R46 says. The model's choices: the START records bear the time state ACQUIRING (assumption log 35); an own frame
which RESTART left on the line is kept by START (assumption log 22). -/
def Obligations.StartValidatesThenEntersRun : Prop :=
  ∀ s : State, s.port.station = .config →
    let img := s.port.image
    let refused (itemClass index : Octet) : Prop :=
      AnswersWith (.start { params := [], early := false }) s [1, 5, itemClass, index]
    (∀ t, TerminalFails img t → (∀ u < t, ¬ TerminalFails img u) → refused 7 (BitVec.ofNat 8 t.val)) ∧
    (∀ k, (∀ t, ¬ TerminalFails img t) → PairFails img k → (∀ j < k, ¬ PairFails img j) →
      refused 8 (BitVec.ofNat 8 (k.val + 1))) ∧
    (∀ k, (∀ t, ¬ TerminalFails img t) → (∀ j, ¬ PairFails img j) → LineFails img k →
      (∀ j < k, ¬ LineFails img j) → refused 9 (BitVec.ofNat 8 (k.val + 1))) ∧
    (ImagePasses img → s.events = eventQueueReset s.events.cause →
      ∃ t, exec (.start { params := [], early := false }) s = .next t ∧ t.port.answer = some [0] ∧
        t.agreement = { s.agreement with
          timeState := .acquiring, phase := some .searching, grade := 15, silenceTimer := some s.time.elapsed } ∧
        t.events.records = startRecords s ∧ t.events.nextSeq = BitVec.ofNat 16 (startRecords s).length ∧
        t.events.lost = none ∧
        (∀ k : Fin 40, isInput img.terminals[k] = true →
          t.inputs[k] = { proven := some s.pins.levels[k], level := s.pins.levels[k], burst := none,
                          unstable := false }) ∧
        (∀ k : Fin 40, isInput img.terminals[k] = false → t.inputs[k] = s.inputs[k]) ∧
        t.line = { condition := .awaitRecessive, leadIn := none, ownFrame := s.line.ownFrame, remainder := none,
                   objecting := false, score := 0, standing := .full, collisions := 0, goodRun := none,
                   txQueue := [], nextOrder := 0, ownSeq := 0, presenceDue := none,
                   heard := Vector.replicate 62 heardNever, hits := Vector.replicate 16 0 } ∧
        t = { portExchange s t with
          port := { (portExchange s t).port with station := .run }
          agreement := t.agreement
          events := t.events
          inputs := t.inputs
          line := t.line })

/-- The reset of each block by the table of R193. -/
def Obligations.RestartResetsEveryBlockAndKeepsTheTime : Prop :=
  ∀ s : State, s.port.station ≠ .notQualified →
    ∃ t, exec (.restart { params := [], early := false }) s = .next t ∧ t.port.answer = some [0] ∧
      t.port.station = .config ∧ t.port.image = s.port.image ∧
      t.time = { s.time with
        slew := 0, correction := some { total := s.time.trim, index := 1 }, epoch := s.time.epoch + 1,
        outliers := [] } ∧
      t.agreement = State.reset.agreement ∧
      (t.line.score = 0 ∧ t.line.standing = .full ∧ t.line.collisions = 0 ∧ t.line.goodRun = none ∧
        t.line.txQueue = [] ∧ t.line.ownSeq = 0 ∧ t.line.presenceDue = none ∧
        t.line.ownFrame = s.line.ownFrame.map (fun f => { f with owner := .noBlock }) ∧
        (∀ k : Fin 62, t.line.heard[k] = heardNever) ∧ (∀ k : Fin 16, t.line.hits[k] = 0)) ∧
      (∀ k : Fin 40, t.inputs[k].proven = none ∧ t.inputs[k].burst = none ∧ t.inputs[k].unstable = false) ∧
      (∀ k : Fin 8, t.pairs[k] = .idle) ∧
      t.events = { records := [], nextSeq := 0, lost := none, cause := .restart } ∧
      t.checker = State.reset.checker ∧ t.report = State.reset.report ∧
      (∀ k : Fin 4, t.clocks[k] =
        { s.clocks[k] with state := if s.clocks[k].state = .active then .suspended else s.clocks[k].state }) ∧
      t.pending = s.pending ∧ t.pins = s.pins ∧ t.supply = s.supply

/-- Spelling and reading host commands agree: no octet of a layout of R198 is dropped, each is read at its place and within
its range, and each code names its command. That an UNKNOWN_COMMAND whose octets name a command does what they name is the
model's choice (assumption log 1). -/
def Obligations.HostOctetsReadBackAsTheyWereSpelt : Prop :=
  (∀ params, configureForm params = true ↔ ConfigureForm params) ∧
    (∀ cls index values i, imageItem cls index values = some i ↔ ItemLayout cls index values i ∧ ItemLegal i) ∧
    (∀ (octets : List Octet) (slot : Fin 256) (f : LoadFields), field octets 0 2 = slot.val →
      (loadFields slot octets = some f ↔ LoadLayout octets f ∧ LoadLegal f)) ∧
    (∀ i : ImageItem, ItemLegal i →
      configureForm (octet (itemClass i) :: octet (itemIndex i) :: itemOctets i) = true ∧
      imageItem (itemClass i) (itemIndex i) (itemOctets i) = some i) ∧
    (∀ f : LoadFields, LoadLegal f →
      (loadOctets f).length = 27 ∧ field (loadOctets f) 0 2 = f.slot.val ∧ loadFields f.slot (loadOctets f) = some f) ∧
    (∀ (params : List Octet) (early : Bool), params.length ≤ 71 →
      let p : SelectPeriod := { params := params, early := early }
      periodCommand (1 :: params) early = .configure p ∧ periodCommand (2 :: params) early = .start p ∧
      periodCommand (3 :: params) early = .restart p ∧ periodCommand (4 :: params) early = .readStatus p ∧
      periodCommand (5 :: params) early = .takeEvents p ∧ periodCommand (6 :: params) early = .peekEvent p ∧
      periodCommand (7 :: params) early = .takeDeviation p ∧ periodCommand (8 :: params) early = .loadEntry p ∧
      periodCommand (9 :: params) early = .cancelEntry p ∧ periodCommand (10 :: params) early = .readEntry p ∧
      periodCommand (11 :: params) early = .readHeard p ∧ periodCommand (12 :: params) early = .clearUrgent p ∧
      periodCommand (13 :: params) early = .setTime p ∧ periodCommand (14 :: params) early = .setDial p) ∧
    (∀ (code : Octet) (params : List Octet) (early : Bool),
      code.toNat = 0 ∨ 14 < code.toNat ∨ 71 < params.length →
      periodCommand (code :: params) early = .unknownCommand (code :: params) early) ∧
    (∀ early, periodCommand [] early = .answerOnlySelectPeriod 0 early) ∧
    (∀ (octets : List Octet) (early : Bool) (s : State),
      exec (.unknownCommand octets early) s = exec (periodCommand octets early) s)

/-- The end of qualification (R1, R186) with the first sample of the supply-status input (R172), and R9, where s is 0
first, so that the new total is F. Before their points the commands change nothing (assumption log 1). -/
def Obligations.QualificationAndCorrectionSecondsEnd : Prop :=
  ∀ s : State,
    (s.port.station = .notQualified → 4000 ≤ s.time.elapsed.toNat →
      exec .qualificationEnd s = .next { s with
        time := { s.time with
          qualified := true, correction := some { total := s.time.trim + 64 * s.time.slew, index := 1 } }
        supply := s.pins.supply
        port := { s.port with station := .config } }) ∧
    (s.port.station ≠ .notQualified ∨ s.time.elapsed.toNat < 4000 → exec .qualificationEnd s = .next s) ∧
    (∀ c, s.time.correction = some c → 1000000 < c.index →
      exec .correctionSecondEnd s = .next { s with
        time := { s.time with slew := 0, correction := some { total := s.time.trim, index := 1 } } }) ∧
    ((∀ c, s.time.correction = some c → c.index ≤ 1000000) → exec .correctionSecondEnd s = .next s)

/-- The advance of R4 with the carries of R5, the correction second of R8, the second mark of R6 and the step boundary
of R174. That one microsecond passes in a step on an empty queue with no event due is the model's choice (assumption log
1). -/
def Obligations.CentreTimeAdvancesAndCarries : Prop :=
  ∀ s : State, s.pending = [] → dueEvents s = [] → TimeBaseLegal s.time →
    ∃ t, step s = .next t ∧ t = { s with time := t.time } ∧
      (s.time.qualified = false → t.time = { s.time with elapsed := s.time.elapsed + 1 }) ∧
      (s.time.qualified = true →
        t.time = { s.time with
          elapsed := s.time.elapsed + 1
          date := t.time.date
          fraction := t.time.fraction
          correction := s.time.correction.map fun c => { total := c.total, index := c.index + 1 }
          markDue := t.time.markDue
          boundaryDue := t.time.boundaryDue } ∧
        t.time.date.day < 65536 ∧ t.time.date.us < dayLength ∧ t.time.fraction < 64 ∧
        (∀ c, s.time.correction = some c → comingShare s.time = correctionShare c.total c.index) ∧
        (comingShare s.time = -1 ∨ comingShare s.time = 0 ∨ comingShare s.time = 1) ∧
        ((placeDate t.time.date * 64 + t.time.fraction : Nat) : Int) =
          (((placeDate s.time.date * 64 + s.time.fraction : Nat) : Int) + 64 + comingShare s.time) %
            ((cycleLength * 64 : Nat) : Int) ∧
        t.time.markDue =
          (if t.time.date.us / 1000000 = s.time.date.us / 1000000 then s.time.markDue
           else some (t.time.date.us / 1000000)) ∧
        (∀ k : Fin 4, s.port.image.lines[k] = none → t.time.boundaryDue[k] = s.time.boundaryDue[k]) ∧
        (∀ (k : Fin 4) (c : ClockConfig), s.port.image.lines[k] = some c → c.stepSeconds = 30 ∨ c.stepSeconds = 60 →
          t.time.boundaryDue[k] =
            (if t.time.date.us / (c.stepSeconds * 1000000) = s.time.date.us / (c.stepSeconds * 1000000) then
              s.time.boundaryDue[k]
             else true)))

/-- The spreading of R8, from one microsecond to the whole correction second. -/
def Obligations.CorrectionTotalIsSpreadExactly : Prop :=
  ∀ trim slew : Int, trim.natAbs ≤ 12800 → slew.natAbs ≤ 500 →
    let c := newCorrection trim slew
    c.index = 1 ∧ c.total = trim + 64 * slew ∧ c.total.natAbs ≤ 44800 ∧
      (∀ i, 1 ≤ i → correctionShare c.total i =
        if (i - 1) * c.total.natAbs / 1000000 < i * c.total.natAbs / 1000000 then c.total.sign else 0) ∧
      (∀ n, ((List.range n).map fun i => correctionShare c.total (i + 1)).sum =
        c.total.sign * ((n * c.total.natAbs / 1000000 : Nat) : Int)) ∧
      ((List.range 1000000).map fun i => correctionShare c.total (i + 1)).sum = c.total

/-- R7, the arithmetic that every block uses: both dates placed on the cycle, the difference taken in its range, and a sum
read back. -/
def Obligations.DatesDifferAndAddOnTheirCycle : Prop :=
  ∀ a b : Date, a.day < 65536 → a.us < 86400000000 → b.day < 65536 → b.us < 86400000000 →
    let placed (d : Date) : Int := (d.day : Int) * 86400000000 + d.us
    let cycle : Int := 65536 * 86400000000
    (dateDiff a b - (placed a - placed b)) % cycle = 0 ∧
    -(32768 * 86400000000) ≤ dateDiff a b ∧ dateDiff a b < 32768 * 86400000000 ∧
    (∀ n : Int, (dateAdd b n).day < 65536 ∧ (dateAdd b n).us < 86400000000 ∧
      placed (dateAdd b n) = (placed b + n) % cycle) ∧
    dateAdd b (dateDiff a b) = a ∧
    (∀ n : Int, -(32768 * 86400000000) ≤ n → n < 32768 * 86400000000 → dateDiff (dateAdd a n) a = n)

/-- The five cases of R12 with all they change; the marker and the urgent condition of a step are those of R19. -/
def Obligations.DisciplineFollowsTheSizeOfTheOffset : Prop :=
  ∀ (d : Int) (s : State),
    (d.natAbs ≤ 1 → discipline d s = (.deadBand, { s with time := { s.time with outliers := [] } })) ∧
    (2 ≤ d.natAbs → d.natAbs ≤ 500 →
      discipline d s = (.slew (decide (d.natAbs ≤ 50)), { s with time := { s.time with
        slew := d
        trim := max (-12800) (min 12800 (s.time.trim + 8 * d))
        correction := some { total := max (-12800) (min 12800 (s.time.trim + 8 * d)) + 64 * d, index := 1 }
        outliers := [] } })) ∧
    (500 < d.natAbs → settledTimeState s.agreement.timeState = true → s.time.outliers = [] →
      discipline d s = (.outlier, { s with time := { s.time with outliers := [d] } })) ∧
    (∀ first rest, 500 < d.natAbs → settledTimeState s.agreement.timeState = true →
      s.time.outliers = first :: rest → 500 < (d - first).natAbs →
      discipline d s = (.outlier, { s with time := { s.time with outliers := [d] } })) ∧
    (∀ first, 500 < d.natAbs → settledTimeState s.agreement.timeState = true → s.time.outliers = [first] →
      (d - first).natAbs ≤ 500 →
      discipline d s = (.outlier, { s with time := { s.time with outliers := [first, d] } })) ∧
    (500 < d.natAbs →
      (settledTimeState s.agreement.timeState = false ∨
        ∃ first second rest, s.time.outliers = first :: second :: rest ∧ (d - first).natAbs ≤ 500) →
      let t := { s with time := { s.time with
        date := dateAdd s.time.date d
        fraction := 0
        slew := 0
        correction := some { total := s.time.trim, index := 1 }
        epoch := s.time.epoch + 1
        outliers := [] } }
      let marked := offerRecord { date := t.time.date, epoch := t.time.epoch, timeState := s.agreement.timeState }
        (.timeStep s.time.date t.time.date) t
      discipline d s = (.step,
        if settledTimeState s.agreement.timeState = true then
          raiseUrgent .timeStepped { date := t.time.date, epoch := t.time.epoch } marked
        else marked))

/-- R49, R51, R28 with the capture of R26, and R114 at one own mark whose close does not enter HOLDOVER. The model's choices:
without a mark due the command changes nothing (assumption log 1); a start mark held without a capture is not joined
(assumption log 10), nor one that beat an own short frame (assumption log 14, 36). -/
def Obligations.SecondMarkClosesTheSecondAndContends : Prop :=
  ∀ s : State, (s.time.markDue = none → exec .secondMark s = .next s) ∧
    ∀ second, s.time.markDue = some second →
      (s.port.station ≠ .run → exec .secondMark s = .next { s with time := { s.time with markDue := none } }) ∧
      (s.port.station = .run → closedCount s.agreement < 4 →
        ∃ t, exec .secondMark s = .next t ∧ t.time = { s.time with markDue := none } ∧
          t.agreement = { s.agreement with
            withoutSource := if s.agreement.timeState = .agreed ∧ s.agreement.acceptedThisSecond = false then
              s.agreement.withoutSource + 1 else 0
            acceptedThisSecond := false } ∧
          ContestsAtMark second { s with time := t.time, agreement := t.agreement } t)

/-- R60 and R61 with the grades of R47, and R49: the close comes before the contention, which R51 and R28 then decide with
the holdover grade. HOLDOVER_ENTRY is the whole mark (assumption log 19), and the count of empty seconds is 0 on leaving
AGREED (assumption log 17): both are the model's choice, as is which start marks are not joined (assumption log 10, 14,
36). Before their points the commands change nothing (assumption log 1, 24). -/
def Obligations.HoldoverIsEnteredAndAges : Prop :=
  ∀ s : State, s.port.station = .run →
    (∀ second, s.time.markDue = some second → s.agreement.timeState = .agreed →
      s.agreement.acceptedThisSecond = false → 3 ≤ s.agreement.withoutSource →
      let entered : State := raiseUrgent .timeDegraded { date := s.time.date, epoch := s.time.epoch } { s with
        time := { s.time with markDue := none }
        agreement := { s.agreement with
          timeState := .holdover
          grade := min 13 (s.agreement.grade + 1)
          withoutSource := 0
          acceptedThisSecond := false
          holdover := some { grade := s.agreement.grade, elapsed := s.time.elapsed } } }
      ∃ t, exec .holdoverEntry s = .next t ∧ exec .secondMark s = .next t ∧ ContestsAtMark second entered t) ∧
    (s.time.markDue = none ∨ s.agreement.timeState ≠ .agreed ∨ s.agreement.acceptedThisSecond = true ∨
        s.agreement.withoutSource < 3 →
      exec .holdoverEntry s = .next s) ∧
    (∀ h, s.agreement.timeState = .holdover → s.agreement.holdover = some h →
      let aged := min 13 (h.grade + 1 + elapsedSince s.time.elapsed h.elapsed / 16000000)
      (s.agreement.grade < aged →
        exec .holdoverAging s = .next { s with agreement := { s.agreement with grade := aged } }) ∧
      (aged ≤ s.agreement.grade → exec .holdoverAging s = .next s))

/-- R58 with the end of the pause (R141: every item then due fires) and of the suspension (R173), and R67. Before their
points the commands change nothing (assumption log 1). -/
def Obligations.SilenceAndReferenceLossMoveTheTimeState : Prop :=
  ∀ s : State, s.port.station = .run →
    (∀ since, s.agreement.timeState = .acquiring → s.agreement.silenceTimer = some since →
      (reached s.time.elapsed (since + usSpan 8000000) = true →
        ∃ t, exec .silenceTimerExpiry s = .next t ∧
          t.agreement = { s.agreement with
            timeState := .selfTimed, phase := none, grade := 14, lineGood := 0, referenceGood := 0,
            silenceTimer := none } ∧
          (s.supply = .normal → ∀ k : Fin 4, t.clocks[k].state ≠ .suspended) ∧
          dueDeadline t = none ∧ FollowsTime { s with agreement := t.agreement } t) ∧
      (reached s.time.elapsed (since + usSpan 8000000) = false → exec .silenceTimerExpiry s = .next s)) ∧
    (∀ a, s.agreement.arming = some a →
      (reached s.time.elapsed (a.lastPulse + usSpan 3000000) = true →
        (s.agreement.timeState = .referenced →
          exec .referenceLoss s = .next (raiseUrgent .timeDegraded { date := s.time.date, epoch := s.time.epoch }
            { s with agreement := { s.agreement with
              arming := none
              referenceGood := 0
              timeState := .holdover
              grade := 2
              withoutSource := 0
              holdover := some { grade := 1, elapsed := s.time.elapsed } } })) ∧
        (s.agreement.timeState ≠ .referenced →
          exec .referenceLoss s = .next { s with agreement := { s.agreement with arming := none, referenceGood := 0 } })) ∧
      (reached s.time.elapsed (a.lastPulse + usSpan 3000000) = false → exec .referenceLoss s = .next s)) ∧
    (s.agreement.timeState ≠ .acquiring ∨ s.agreement.silenceTimer = none → exec .silenceTimerExpiry s = .next s) ∧
    (s.agreement.arming = none → exec .referenceLoss s = .next s)

/-- The arming of R65. Where both refusals apply, STATE comes first (assumption log 12). -/
def Obligations.SetTimeArmsTheReference : Prop :=
  ∀ (s : State) (params : List Octet), s.port.station = .run → params.length = 7 →
    ((∀ k : Fin 40, s.port.image.terminals[k] ≠ .reference) →
      AnswersWith (.setTime { params := params, early := false }) s [1, 1]) ∧
    (∀ k : Fin 40, s.port.image.terminals[k] = .reference →
      (65535 < (dateField params 0).day ∨ 86399999999 < (dateField params 0).us →
        AnswersWith (.setTime { params := params, early := false }) s [1, 2]) ∧
      ((dateField params 0).day ≤ 65535 → (dateField params 0).us ≤ 86399999999 →
        ∃ t, exec (.setTime { params := params, early := false }) s = .next t ∧ t.port.answer = some [0] ∧
          t = { portExchange s t with agreement := { s.agreement with
            arming := some { armedDate := dateField params 0, lastExpected := none, pulses := 0,
                             lastPulse := s.time.elapsed }
            referenceGood := 0 } }))

/-- R66: expected date, arming, and the offset given to the discipline computation as a reference source of grade 1. The
pulse is taken whatever level last stood at the terminal, the deadline list runs after the time state has moved, and the
lines are suspended before they decide: the model's choice (assumption log 13, 8, 9). -/
def Obligations.ReferencePulseIsDatedAndDisciplines : Prop :=
  ∀ (s : State) (k : Fin 40), referenceTerminal s.port.image = some k →
    let pinned : State := { s with pins := { s.pins with levels := s.pins.levels.set k true } }
    (s.port.station ≠ .run ∨ s.agreement.arming = none → exec .referencePulse s = .next pinned) ∧
    (∀ a, s.port.station = .run → s.agreement.arming = some a →
      (a.lastExpected.isSome = true → (elapsedSince s.time.elapsed a.lastPulse + 500000) / 1000000 = 0 →
        exec .referencePulse s = .next pinned) ∧
      (∀ expected,
        (a.lastExpected = none ∧ expected = a.armedDate) ∨
          (∃ last n, a.lastExpected = some last ∧ n = (elapsedSince s.time.elapsed a.lastPulse + 500000) / 1000000 ∧
            1 ≤ n ∧ expected = dateAdd last ((n * 1000000 : Nat) : Int)) →
        let d := dateDiff expected s.time.date
        let outcome := disciplineTime d s.agreement.timeState s.time
        let taken : Agreement := { s.agreement with
          arming := some { a with
            lastExpected := some expected, pulses := min 65535 (a.pulses + 1), lastPulse := s.time.elapsed }
          silenceTimer := if s.agreement.timeState = .acquiring then some s.time.elapsed
            else s.agreement.silenceTimer }
        ∃ t, exec .referencePulse s = .next t ∧ OffsetTaken .reference 1 d { pinned with agreement := taken } t ∧
          (outcome.1 ≠ .step ∨ s.time.markDue = none →
            t.time = outcome.2 ∧ t.agreement = takeOutcome s.time.elapsed .reference 1 outcome.1 taken ∧
            t.line = s.line) ∧
          dueDeadline t = none ∧
          t = { pinned with
            time := t.time
            agreement := t.agreement
            line := t.line
            events := t.events
            checker := t.checker
            report := t.report
            clocks := t.clocks }))

/-- R53, R54: the frame taken as a line source, once it is scored (R35, R36, R38) and its origin's heard entry is up to
date (R117). The order in which the time state moves, the items due fire and the lines are suspended and decide is the
model's choice (assumption log 8, 9). -/
def Obligations.HeardWinnerDisciplinesTheStation : Prop :=
  ∀ (s : State) (f : TimeFrame) (li : LeadIn) (c : Stamp) (k : Fin 62), s.port.station = .run → FrameCanEnd .time s →
    timeFrameGood f = true → s.line.leadIn = some li → li.capture = some c → peerOf f.origin s = some k →
    takesLineSource s.agreement.timeState = true → 1 ≤ f.rank.toNat → f.rank.toNat ≤ 14 →
    f.rank.toNat ≤ s.agreement.grade → referenceRunning s.agreement = false → s.time.epoch = c.epoch →
    f.body.us.toNat < dayLength →
    let d := dateDiff { day := f.body.day.toNat, us := f.body.us.toNat } c.date + (s.port.image.lineDelay : Int)
    let outcome := disciplineTime d s.agreement.timeState s.time
    let heard : Agreement := { s.agreement with
      silenceTimer := if s.agreement.timeState = .acquiring then some s.time.elapsed else s.agreement.silenceTimer }
    ∃ mid t, GoodFrameEnds false s mid ∧ exec (.receiveTimeFrame f) s = .next t ∧
      t.line.heard = s.line.heard.set k { s.line.heard[k] with
        presence := .present
        lastGood := some s.time.elapsed
        silenceExpiry := some (s.time.elapsed + usSpan (s.port.image.silenceLimit * 1000000)) } ∧
      OffsetTaken .line f.rank.toNat d
        { mid with agreement := heard, line := { mid.line with heard := t.line.heard } } t ∧
      (outcome.1 ≠ .step ∨ s.time.markDue = none →
        t.time = outcome.2 ∧ t.agreement = takeOutcome s.time.elapsed .line f.rank.toNat outcome.1 heard) ∧
      t.line.condition = .gap ∧ t.line.leadIn = none ∧ t.line.ownFrame = none ∧ dueDeadline t = none ∧
      t = { s with
        time := t.time
        agreement := t.agreement
        line := t.line
        events := t.events
        checker := t.checker
        report := t.report
        clocks := t.clocks }

/-- R53 and R55: what a declined frame does, once it is scored; with the frames of the own origin (R34) and of origin 0
and 63 (R195). The model's choices: a frame without a capture is declined (assumption log 10), one of the own origin or
with a µs of day beyond the day restarts the silence timer (assumption log 11, 27). -/
def Obligations.DeclinedTimeFrameLeavesTheTimeAlone : Prop :=
  ∀ (s : State) (f : TimeFrame), s.port.station = .run → FrameCanEnd .time s → timeFrameGood f = true →
    let capture := s.line.leadIn.bind (·.capture)
    let heard : Agreement := { s.agreement with
      silenceTimer := if s.agreement.timeState = .acquiring then some s.time.elapsed else s.agreement.silenceTimer }
    let disagrees := s.agreement.timeState = .referenced ∧ timeFrameUsable f = true ∧
      ∃ c, capture = some c ∧ 1000 < (lineOffset f c s).natAbs
    (∀ k, peerOf f.origin s = some k → (∀ c, capture = some c → lineSource f c s = false) →
      ∃ mid t u, GoodFrameEnds false s mid ∧ exec (.receiveTimeFrame f) s = .next t ∧
        u = { mid with
          agreement := heard
          line := { mid.line with heard := s.line.heard.set k { s.line.heard[k] with
            presence := .present
            lastGood := some s.time.elapsed
            silenceExpiry := some (s.time.elapsed + usSpan (s.port.image.silenceLimit * 1000000)) } } } ∧
        (disagrees → t = raiseUrgent .referenceDisagree { date := s.time.date, epoch := s.time.epoch } u) ∧
        (¬ disagrees → t = u) ∧
        t.time = s.time ∧ t.inputs = s.inputs ∧ t.pairs = s.pairs ∧ t.checker = s.checker ∧ t.clocks = s.clocks ∧
        t.port = s.port) ∧
    (f.origin = ownOrigin s → 1 ≤ f.origin.toNat → f.origin.toNat ≤ 62 →
      ∃ mid, GoodFrameEnds true s mid ∧ exec (.receiveTimeFrame f) s = .next { mid with agreement := heard }) ∧
    (f.origin ≠ ownOrigin s → f.origin.toNat = 0 ∨ f.origin.toNat = 63 →
      ∃ mid, GoodFrameEnds false s mid ∧ exec (.receiveTimeFrame f) s = .next mid)

/-- The table of R50 for both counts, and the transitions of section 3.4 that an outcome calls for, as the agreement
controller takes it. -/
def Obligations.GoodSecondsMoveTheTimeState : Prop :=
  ∀ (now : Elapsed) (grade : Nat) (o : Outcome) (a : Agreement),
    let other : SourceKind → SourceKind
      | .line => .reference
      | .reference => .line
    let entersSettling := acceptedOutcome o = true ∧
      (a.timeState = .selfTimed ∨ (a.timeState = .acquiring ∧ a.phase = some .searching))
    (a.timeState = .acquiring → a.phase = some .settling → goodOutcome o = true → a.lineGood = 3 →
      (takeOutcome now .line grade o a).timeState = .agreed ∧
      (takeOutcome now .line grade o a).grade = min 13 (grade + 1) ∧
      (takeOutcome now .line grade o a).sourceGrade = some grade ∧
      (takeOutcome now .line grade o a).withoutSource = 0) ∧
    (a.timeState = .acquiring ∧ a.phase = some .settling ∨ a.timeState = .agreed → goodOutcome o = true →
      a.referenceGood = 3 →
      (takeOutcome now .reference grade o a).timeState = .referenced ∧
      (takeOutcome now .reference grade o a).grade = 1) ∧
    (∀ kind, acceptedOutcome o = true →
      (a.timeState = .acquiring ∧ a.phase = some .searching ∧ a.grade = 15) ∨ a.timeState = .selfTimed →
      (takeOutcome now kind grade o a).timeState = .acquiring ∧
      (takeOutcome now kind grade o a).phase = some .settling ∧ (takeOutcome now kind grade o a).grade = 15) ∧
    (∀ kind, entersSettling →
      goodCount kind (takeOutcome now kind grade o a) = (if goodOutcome o = true then 1 else 0) ∧
      goodCount (other kind) (takeOutcome now kind grade o a) = 0) ∧
    (∀ kind, acceptedOutcome o = true → a.timeState = .selfTimed →
      (takeOutcome now kind grade o a).silenceTimer = some now) ∧
    (∀ kind, a.timeState = .acquiring → (takeOutcome now kind grade o a).timeState = .acquiring →
      (takeOutcome now kind grade o a).silenceTimer = a.silenceTimer) ∧
    (∀ kind, acceptedOutcome o = true → a.timeState = .holdover →
      (takeOutcome now kind grade o a).timeState = .agreed ∧
      (takeOutcome now kind grade o a).grade = min 13 (grade + 1) ∧
      (takeOutcome now kind grade o a).holdover = none) ∧
    (∀ kind, acceptedOutcome o = true → a.timeState = .acquiring → a.phase = some .settling →
      ¬ (goodOutcome o = true ∧ goodCount kind a = 3) →
      (takeOutcome now kind grade o a).timeState = .acquiring ∧ (takeOutcome now kind grade o a).grade = a.grade) ∧
    (∀ kind, acceptedOutcome o = true → a.timeState = .agreed →
      ¬ (kind = .reference ∧ goodOutcome o = true ∧ a.referenceGood = 3) →
      (takeOutcome now kind grade o a).timeState = .agreed ∧
      (takeOutcome now kind grade o a).grade = min 13 (grade + 1) ∧
      (takeOutcome now kind grade o a).sourceGrade = some grade ∧
      (takeOutcome now kind grade o a).acceptedThisSecond = true) ∧
    (∀ kind, a.timeState = .referenced → (takeOutcome now kind grade o a).timeState = .referenced ∧
      (takeOutcome now kind grade o a).grade = a.grade) ∧
    (∀ kind, o = .step → (takeOutcome now kind grade o a).lineGood = 0 ∧
      (takeOutcome now kind grade o a).referenceGood = 0) ∧
    (∀ kind, goodOutcome o = true → ¬ entersSettling →
      goodCount kind (takeOutcome now kind grade o a) = min 255 (goodCount kind a + 1) ∧
      goodCount (other kind) (takeOutcome now kind grade o a) = goodCount (other kind) a) ∧
    (∀ kind, o = .slew false → goodCount kind (takeOutcome now kind grade o a) = 0 ∧
      (¬ entersSettling → goodCount (other kind) (takeOutcome now kind grade o a) = goodCount (other kind) a)) ∧
    (∀ kind, o = .outlier → (takeOutcome now kind grade o a).timeState = a.timeState ∧
      (takeOutcome now kind grade o a).grade = a.grade ∧ (takeOutcome now kind grade o a).sourceGrade = a.sourceGrade ∧
      goodCount kind (takeOutcome now kind grade o a) = 0 ∧
      goodCount (other kind) (takeOutcome now kind grade o a) = goodCount (other kind) a)

/-- R41 and R115 at the due point of R114. Before it the command changes nothing (assumption log 1). -/
def Obligations.PresenceFallsDueIntoTheQueue : Prop :=
  ∀ s : State, s.port.station = .run →
    (∀ due, s.line.presenceDue = some due → reached s.time.elapsed due = true →
      let b : PresenceBody := { timeState := BitVec.ofNat 3 (timeStateCode s.agreement.timeState)
                                grade := BitVec.ofNat 4 s.agreement.grade
                                epoch := s.time.epoch
                                lastSeq := s.line.ownSeq
                                standing := BitVec.ofNat 2 (standingCode s.line.standing) }
      ∃ t, exec .presenceDue s = .next t ∧ t.line.presenceDue = none ∧
        (s.line.standing = .withdrawn → t.line.txQueue = s.line.txQueue) ∧
        (s.line.standing ≠ .withdrawn → s.line.txQueue.any isPresenceItem = true →
          t.line.txQueue.length = s.line.txQueue.length ∧
          ∀ (n : Nat) (it : TxItem), s.line.txQueue[n]? = some it →
            t.line.txQueue[n]? = some (if isPresenceItem it = true then
              { it with body := .presence b, attempts := 0, refreshed := it.refreshed || inFlight s.line it }
              else it)) ∧
        (s.line.standing ≠ .withdrawn → s.line.txQueue.any isPresenceItem = false → s.line.txQueue.length < 16 →
          t.line.txQueue.Perm ({ rank := 0, body := .presence b, attempts := 0, eventSeq := none,
                                 order := s.line.nextOrder, refreshed := false } :: s.line.txQueue)) ∧
        (s.line.txQueue.any isPresenceItem = false → 16 ≤ s.line.txQueue.length →
          t.line.txQueue = s.line.txQueue) ∧
        t = { s with line := { s.line with
          presenceDue := none, txQueue := t.line.txQueue, nextOrder := t.line.nextOrder } }) ∧
    (s.line.presenceDue = none ∨ (∃ due, s.line.presenceDue = some due ∧ reached s.time.elapsed due = false) →
      exec .presenceDue s = .next s)

/-- The four conditions of R30. It also waits for a second mark that is due (assumption log 21). -/
def Obligations.ReadyFrameBeginsOnAnIdleLine : Prop :=
  ∀ s : State, s.port.station = .run →
    (∀ it rest, s.line.txQueue = it :: rest → s.line.condition = .idle → s.line.ownFrame = none →
      s.time.date.us % 1000000 < 999500 → s.time.markDue = none → s.line.standing ≠ .withdrawn →
      exec .beginReadyFrame s = .next { s with line := { s.line with
        condition := .frame
        leadIn := some { mark := some .short, start := s.time.elapsed, capture := some (stampNow s) }
        ownFrame := some { frame := itemFrame (ownOrigin s) it, owner := .queueItem it.order } } }) ∧
    (s.line.txQueue = [] ∨ s.line.condition ≠ .idle ∨ 999500 ≤ s.time.date.us % 1000000 ∨
        s.line.standing = .withdrawn →
      exec .beginReadyFrame s = .next s)

/-- R42 and R43 on the item, then R35 on the score, R34 on the collision count, R36 and R38 on the standing; R31 and R52 on
a TIME frame, R45 on a frame that RESTART left. The model's choices: the third collision sets the score to 192 without
the 8 (assumption log 18); the frame that beat an own one is heard on with its capture (assumption log 14). -/
def Obligations.OwnFrameOutcomesSettleItemAndScore : Prop :=
  ∀ (s : State) (fr : Frame) (owner : FrameOwner) (how : FrameEnd), s.port.station = .run →
    s.line.ownFrame = some { frame := fr, owner := owner } →
    let l := s.line
    let records := s.events.records
    let ended : LineController := { l with
      ownFrame := none
      condition := if l.condition = .frame then .gap else l.condition
      leadIn := match how with
        | .lost => l.leadIn.map fun li => if li.mark = some .short then { li with mark := none } else li
        | .collided => l.leadIn
        | .objected | .completed => none
      remainder := if how = .collided then some l.standing else none
      objecting := false }
    let count := if how = .lost then l.collisions
      else if how = .collided ∧ l.collisions < 2 then l.collisions + 1 else 0
    (owner = .noBlock → exec (.frameOutcome how) s = .next { s with line := { ended with remainder := none } }) ∧
    (owner ≠ .noBlock → ∃ (items : List TxItem) (written : List EventRecord) (t : State),
      exec (.frameOutcome how) s = .next t ∧
      (owner = .agreement → items = l.txQueue ∧ written = records) ∧
      (∀ order, owner = .queueItem order → (∀ e ∈ l.txQueue, e.order ≠ order) →
        items = l.txQueue ∧ written = records) ∧
      (∀ before it after, owner = .queueItem it.order → l.txQueue = before ++ it :: after →
        (∀ e ∈ before ++ after, e.order ≠ it.order) →
        (∀ urgent b n, it.body = .notice urgent b → it.eventSeq = some n →
          (how = .completed → items = before ++ after ∧ written = writeBroadcast .sent n records) ∧
          (how = .lost → items = before ++ { it with refreshed := false } :: after ∧ written = records) ∧
          (how = .objected ∨ how = .collided →
            (it.attempts < 2 →
              items = before ++ { it with attempts := it.attempts + 1 } :: after ∧ written = records) ∧
            (2 ≤ it.attempts → items = before ++ after ∧ written = writeBroadcast .droppedObjected n records))) ∧
        (∀ b, it.body = .presence b → it.eventSeq = none → written = records ∧
          (how = .lost ∨ it.refreshed = true → items = before ++ { it with refreshed := false } :: after) ∧
          (how ≠ .lost → it.refreshed = false → items = before ++ after))) ∧
      (let settled : State := { s with
         line := { ended with txQueue := items }, events := { s.events with records := written } }
       let counted : State := { settled with line := { settled.line with collisions := count } }
       (how = .lost → t = settled) ∧
       (how = .collided → 2 ≤ l.collisions →
         (l.standing = .withdrawn → t = raiseUrgent .duplicateStation (presentDate s) counted) ∧
         (l.standing ≠ .withdrawn →
           t = withdrawal 192 (raiseUrgent .duplicateStation (presentDate s) counted))) ∧
       (how ≠ .lost → ¬ (how = .collided ∧ 2 ≤ l.collisions) →
         (l.standing = .withdrawn → t = counted) ∧
         (l.standing ≠ .withdrawn → l.score ≤ 191 →
           (how = .completed → t = withScore (l.score - 1) counted) ∧
           (how ≠ .completed → l.score + 8 < 192 → t = withScore (l.score + 8) counted) ∧
           (how ≠ .completed → 192 ≤ l.score + 8 → t = withdrawal (l.score + 8) counted)))))

/-- R33 to R36 and R38 on the score, R117 then R120, then the acceptance list (R125 to R127, R195) and the observation it
offers (R128), whose part in the checker is `ObservationSatisfiesOrClearsOneEntry`. A frame that is no peer's is scored
and handed to no block (R116, R195). -/
def Obligations.ReceivedNoticeUpdatesItsHeardEntry : Prop :=
  ∀ (s : State) (f : NoticeFrame), s.port.station = .run → FrameCanEnd .short s → noticeFrameGood f = true →
    (∀ k : Fin 62, peerOf f.origin s = some k →
      let r : RecentNotice := { seq := f.body.seq, epoch := f.body.epoch
                                date := { day := f.body.day.toNat, us := f.body.us.toNat } }
      let heard : HeardEntry := { s.line.heard[k] with
        presence := .present
        lastGood := some s.time.elapsed
        silenceExpiry := some (s.time.elapsed + usSpan (s.port.image.silenceLimit * 1000000)) }
      let again := heard.lastSeq.isSome = true ∧ r ∈ heard.recent
      let jump : Nat := match heard.lastSeq with
        | some l => (f.body.seq - l - 1).toNat
        | none => 0
      let fits (i : Fin 16) : Prop := ∃ a, s.port.image.acceptance[i] = some a ∧
        (∀ place < 6, a.originMask.getLsbD place = true →
          f.origin.getLsbD place = a.originValue.getLsbD place) ∧
        (∀ place < 6, a.channelMask.getLsbD place = true →
          f.body.channel.getLsbD place = a.channelValue.getLsbD place)
      let decides (i : Fin 16) : Prop := f.body.us.toNat < dayLength ∧ fits i ∧ ∀ j < i, ¬ fits j
      let offered := ∃ i a, decides i ∧ s.port.image.acceptance[i] = some a ∧ a.offer = true
      ∃ mid t, GoodFrameEnds false s mid ∧ exec (.receiveNotice f) s = .next t ∧
        (again → t = { mid with line := { mid.line with heard := s.line.heard.set k heard } }) ∧
        (¬ again → ∃ u : State,
          u = { mid with line := { mid.line with
            heard := s.line.heard.set k { heard with
              missed := if jump < 128 then min 65535 (heard.missed + jump) else min 65535 heard.missed
              lastSeq := some f.body.seq
              recent := (r :: heard.recent).take 8 }
            hits := u.line.hits } } ∧
          (∀ i : Fin 16, decides i → u.line.hits[i] = min 65535 (s.line.hits[i] + 1)) ∧
          (∀ i : Fin 16, ¬ decides i → u.line.hits[i] = s.line.hits[i]) ∧
          (offered → t = takeObservation
            { own := false, origin := f.origin.toNat, channel := f.body.channel.toNat, state := f.body.newState
              date := { day := f.body.day.toNat, us := f.body.us.toNat }, epoch := f.body.epoch
              timeState := timeStateOfCode f.body.timeState } u) ∧
          (¬ offered → t = u)) ∧
        t.line.condition = .gap ∧
        t = { s with line := t.line, events := t.events, checker := t.checker, report := t.report }) ∧
    (f.origin = ownOrigin s ∨ f.origin.toNat = 0 ∨ f.origin.toNat = 63 →
      ∃ t, exec (.receiveNotice f) s = .next t ∧ GoodFrameEnds (decide (f.origin = ownOrigin s)) s t)

/-- R33 to R36 and R38 on the score, then R117, R121 and R122. A frame that is no peer's is scored and handed to no block
(R116, R195). -/
def Obligations.ReceivedPresenceUpdatesItsHeardEntry : Prop :=
  ∀ (s : State) (f : PresenceFrame), s.port.station = .run → FrameCanEnd .short s → presenceFrameGood f = true →
    (∀ k : Fin 62, peerOf f.origin s = some k →
      let heard : HeardEntry := { s.line.heard[k] with
        presence := .present
        lastGood := some s.time.elapsed
        silenceExpiry := some (s.time.elapsed + usSpan (s.port.image.silenceLimit * 1000000))
        lastPresence := some { timeState := timeStateOfCode f.body.timeState, grade := f.body.grade,
                               epoch := f.body.epoch, standing := f.body.standing } }
      ∃ mid t, GoodFrameEnds false s mid ∧ exec (.receivePresence f) s = .next t ∧
        (heard.lastSeq = none →
          t.line.heard = s.line.heard.set k { heard with lastSeq := some f.body.lastSeq }) ∧
        (∀ l, heard.lastSeq = some l → 1 ≤ (f.body.lastSeq - l).toNat → (f.body.lastSeq - l).toNat ≤ 127 →
          t.line.heard = s.line.heard.set k { heard with
            missed := min 65535 (heard.missed + (f.body.lastSeq - l).toNat), lastSeq := some f.body.lastSeq }) ∧
        (∀ l, heard.lastSeq = some l → (f.body.lastSeq - l).toNat = 0 ∨ 128 ≤ (f.body.lastSeq - l).toNat →
          t.line.heard = s.line.heard.set k heard) ∧
        t.line.condition = .gap ∧
        t = { mid with line := { mid.line with heard := t.line.heard } }) ∧
    (f.origin = ownOrigin s ∨ f.origin.toNat = 0 ∨ f.origin.toNat = 63 →
      ∃ t, exec (.receivePresence f) s = .next t ∧ GoodFrameEnds (decide (f.origin = ownOrigin s)) s t)

/-- R33 and R35 for a received bad frame, with the entry to WITHDRAWN of R38; the standing that R33 and R37 read for the
objection is that in force while the frame was on the line. A RECEIVE whose kind does not fit the start mark (R25), or
whose check disagrees, is the RECEIVE_BAD_FRAME it stands for: that such frames come under either row is the model's
choice (assumption log 14). -/
def Obligations.BadFrameIsScoredAndMayWithdraw : Prop :=
  (∀ (s : State) (why : BadFrame), s.line.condition ≠ .awaitRecessive → s.line.ownFrame = none →
    (s.port.station = .run →
      let standing := s.line.remainder.getD s.line.standing
      let ended : State := { s with line := { s.line with
        condition := .awaitRecessive, leadIn := none, remainder := none
        objecting := decide (why = .checkDisagrees ∧ standing = .full) } }
      (s.line.standing ≠ .withdrawn → s.line.remainder = none →
        (s.line.score + 1 < 192 → exec (.receiveBadFrame why) s = .next (withScore (s.line.score + 1) ended)) ∧
        (s.line.score = 191 → exec (.receiveBadFrame why) s = .next (withdrawal 192 ended))) ∧
      (s.line.standing ≠ .withdrawn → s.line.remainder ≠ none → exec (.receiveBadFrame why) s = .next ended) ∧
      (s.line.standing = .withdrawn →
        exec (.receiveBadFrame why) s = .next { ended with line := { ended.line with goodRun := some 0 } })) ∧
    (s.port.station = .config → exec (.receiveBadFrame why) s = .next { s with
      line := { s.line with condition := .awaitRecessive, leadIn := none, remainder := none, objecting := false } })) ∧
    (∀ (s : State) (f : TimeFrame),
      (FrameCanEnd .time s → timeFrameGood f = false →
        exec (.receiveTimeFrame f) s = exec (.receiveBadFrame .checkDisagrees) s) ∧
      (∀ li, s.line.leadIn = some li → li.mark = some .short →
        exec (.receiveTimeFrame f) s = exec (.receiveBadFrame .malformed) s)) ∧
    (∀ (s : State) (f : NoticeFrame),
      (FrameCanEnd .short s → noticeFrameGood f = false →
        exec (.receiveNotice f) s = exec (.receiveBadFrame .checkDisagrees) s) ∧
      (∀ li, s.line.leadIn = some li → li.mark = some .time →
        exec (.receiveNotice f) s = exec (.receiveBadFrame .malformed) s)) ∧
    (∀ (s : State) (f : PresenceFrame),
      (FrameCanEnd .short s → presenceFrameGood f = false →
        exec (.receivePresence f) s = exec (.receiveBadFrame .checkDisagrees) s) ∧
      (∀ li, s.line.leadIn = some li → li.mark = some .time →
        exec (.receivePresence f) s = exec (.receiveBadFrame .malformed) s))

/-- R119: the expiry taken, the expiry still ahead, the good frame that follows it, and which entries hold an expiry. That
the command sent before its point changes nothing, and how a point is read as reached, is the model's choice
(assumption log 1, 4). -/
def Obligations.SilenceExpiryTurnsAnEntrySilent : Prop :=
  (∀ s t : State, HeardLegal s.line → step s = .next t → HeardLegal t.line) ∧
    ∀ (s : State) (k : Fin 62), s.port.station = .run →
    (∀ due, s.line.heard[k].silenceExpiry = some due → s.line.heard[k].presence = .present →
      reached s.time.elapsed due = true →
      exec (.silenceExpiry k) s = .next { s with line := { s.line with
        heard := s.line.heard.set k { s.line.heard[k] with presence := .silent, silenceExpiry := none } } }) ∧
    (s.line.heard[k].presence ≠ .present ∨
        (∃ due, s.line.heard[k].silenceExpiry = some due ∧ reached s.time.elapsed due = false) →
      exec (.silenceExpiry k) s = .next s) ∧
    (FrameCanEnd .short s →
      (∀ f, noticeFrameGood f = true → peerOf f.origin s = some k →
        ∃ t, exec (.receiveNotice f) s = .next t ∧ t.line.heard[k].presence = .present ∧
          t.line.heard[k].silenceExpiry =
            some (s.time.elapsed + usSpan (s.port.image.silenceLimit * 1000000))) ∧
      (∀ f, presenceFrameGood f = true → peerOf f.origin s = some k →
        ∃ t, exec (.receivePresence f) s = .next t ∧ t.line.heard[k].presence = .present ∧
          t.line.heard[k].silenceExpiry =
            some (s.time.elapsed + usSpan (s.port.image.silenceLimit * 1000000)))) ∧
    (FrameCanEnd .time s →
      (∀ f, timeFrameGood f = true → peerOf f.origin s = some k →
        ∃ t, exec (.receiveTimeFrame f) s = .next t ∧ t.line.heard[k].presence = .present ∧
          t.line.heard[k].silenceExpiry =
            some (s.time.elapsed + usSpan (s.port.image.silenceLimit * 1000000))))

/-- R24 and R26. A lead-in inside a gap begins a frame without a capture (assumption log 10). -/
def Obligations.LineFollowsLeadInsAndIdle : Prop :=
  ∀ (s : State) (mark : StartMark), s.port.station ≠ .notQualified →
    (s.line.condition = .idle → exec (.dominantLeadIn mark) s = .next { s with line := { s.line with
      condition := .frame
      leadIn := some { mark := some mark, start := s.time.elapsed, capture :=
        if s.port.station = .run ∧ mark = .time then some (stampNow s) else none }
      remainder := none
      objecting := false } }) ∧
    (s.line.condition = .gap → exec (.dominantLeadIn mark) s = .next { s with line := { s.line with
      condition := .frame
      leadIn := some { mark := some mark, start := s.time.elapsed, capture := none }
      remainder := none
      objecting := false } }) ∧
    (s.line.condition = .frame ∨ s.line.condition = .awaitRecessive → exec (.dominantLeadIn mark) s = .next s) ∧
    (s.line.condition = .gap ∨ s.line.condition = .awaitRecessive → s.line.ownFrame = none →
      exec .lineIdle s = .next { s with line := { s.line with
        condition := .idle, leadIn := none, remainder := none } }) ∧
    (s.line.condition = .idle ∨ s.line.condition = .frame ∨ s.line.ownFrame ≠ none →
      exec .lineIdle s = .next s)

/-- R71, R73, R74 and R76 for one sample of an INPUT terminal; R66 for the REFERENCE terminal; R178 for a proving terminal
while its line has a pulse in flight; R69 and R70 for every other. That EDGE carries the level of any terminal, that each
EDGE is a sample, and which levels of the second half were sampled is the model's choice (assumption log 13). -/
def Obligations.EdgesOpenAndExtendBursts : Prop :=
  ∀ (s : State) (k : Fin 40) (level : Bool),
    let stamp : Stamp := { date := s.time.date, epoch := s.time.epoch, timeState := s.agreement.timeState }
    ∃ n : State, n = { s with pins := { s.pins with levels := s.pins.levels.set k level }, clocks := n.clocks } ∧
    (∀ (j : Fin 4) (c : ClockConfig) (p : Pulse), s.port.image.lines[j] = some c → s.clocks[j].pulse = some p →
      c.proving = k →
      let into := elapsedSince s.time.elapsed p.start
      let half := c.widthMs * 1000 / 2
      n.clocks[j] = { s.clocks[j] with pulse := some { p with seenOn :=
        p.seenOn || (level && decide (half ≤ into)) || (s.pins.levels[k] && decide (half < into)) } }) ∧
    (∀ j : Fin 4, s.port.image.lines[j] = none ∨ s.clocks[j].pulse = none ∨
        (∃ c, s.port.image.lines[j] = some c ∧ c.proving ≠ k) → n.clocks[j] = s.clocks[j]) ∧
    (s.port.station ≠ .run ∨ s.port.image.terminals[k] = .unused ∨ s.port.image.terminals[k] = .clock ∨
        s.port.image.terminals[k] = .proving → exec (.edge k level) s = .next n) ∧
    (s.port.image.terminals[k] = .reference → level = false ∨ s.pins.levels[k] = true →
      exec (.edge k level) s = .next n) ∧
    (s.port.station = .run → referenceTerminal s.port.image = some k → level = true → s.pins.levels[k] = false →
      exec (.edge k level) s = exec .referencePulse n) ∧
    (∀ settleMs cls priority, s.port.image.terminals[k] = .input settleMs cls priority →
      (level = s.inputs[k].level → exec (.edge k level) s = .next n) ∧
      (s.port.station = .run → level ≠ s.inputs[k].level → s.inputs[k].burst = none →
        exec (.edge k level) s = .next { n with inputs := s.inputs.set k { s.inputs[k] with
          level := level
          burst := some { stamp := stamp, start := s.time.elapsed, latest := s.time.elapsed, bounces := 0,
                          expiry := s.time.elapsed + usSpan (settleMs * 1000) } } }) ∧
      (∀ b, s.port.station = .run → level ≠ s.inputs[k].level → s.inputs[k].burst = some b →
        let count := if s.inputs[k].proven = some level then min 65535 (b.bounces + 1) else b.bounces
        let extended := { n with inputs := s.inputs.set k { s.inputs[k] with
          level := level
          burst := some { b with latest := s.time.elapsed, bounces := count,
                                 expiry := s.time.elapsed + usSpan (settleMs * 1000) }
          unstable := s.inputs[k].unstable || (decide (b.bounces ≠ count) && decide (count = 16)) } }
        (b.bounces ≠ count → count % 16 = 0 →
          exec (.edge k level) s = .next (offerRecord stamp (.chatter k.val count) extended)) ∧
        (b.bounces = count ∨ count % 16 ≠ 0 → exec (.edge k level) s = .next extended)))

/-- The disturbance of R75, with the closing record of R76. Before its point the command changes nothing (assumption
log 1). -/
def Obligations.DisturbanceClosesTheBurst : Prop :=
  ∀ (s : State) (k : Fin 40), s.port.station = .run → isInput s.port.image.terminals[k] = true →
    (s.inputs[k].burst = none → exec (.settleExpiry k) s = .next s) ∧
    (∀ b, s.inputs[k].burst = some b →
      (reached s.time.elapsed b.expiry = false → exec (.settleExpiry k) s = .next s) ∧
      (reached s.time.elapsed b.expiry = true → s.inputs[k].proven = some s.inputs[k].level →
        let closed := { s with inputs := s.inputs.set k { s.inputs[k] with burst := none, unstable := false } }
        let stamp : Stamp := { date := s.time.date, epoch := s.time.epoch, timeState := s.agreement.timeState }
        exec (.settleExpiry k) s = .next
          (if s.inputs[k].unstable = true then offerRecord stamp (.chatter k.val b.bounces) closed else closed)))

/-- The five steps of R77 in their order: R78, R79 and R40 to the state `m`, then the observation of R80, the signals of
R81 to each pair in ascending order, DRIVE first, and the limits already used when a pair enters MOVING (R87). That those
limits are taken here, and in pair order, is the model's choice (assumption log 9), and so is the number that a notice
bears for a lost record (assumption log 30). -/
def Obligations.ProvenChangeIsRecordedAndShared : Prop :=
  ∀ (s : State) (k : Fin 40) (b : Burst) (settleMs : Nat) (cls : NoticeClass) (priority : Nat),
    s.port.station = .run → s.port.image.terminals[k] = .input settleMs cls priority →
    s.inputs[k].burst = some b → reached s.time.elapsed b.expiry = true →
    s.inputs[k].proven = some (!s.inputs[k].level) →
    let on := s.inputs[k].level
    let seq := s.line.ownSeq + 1
    let answer : Broadcast := if s.line.standing = .withdrawn then .droppedWithdrawn
      else if s.line.txQueue.length < 16 then .queued else .droppedFull
    let body : NoticeBody := { channel := BitVec.ofNat 6 k.val, newState := on, seq := seq,
                               day := BitVec.ofNat 16 b.stamp.date.day, us := BitVec.ofNat 37 b.stamp.date.us,
                               epoch := b.stamp.epoch,
                               timeState := BitVec.ofNat 3 (timeStateCode b.stamp.timeState) }
    let closed : State := { s with
      inputs := s.inputs.set k { proven := some on, level := on, burst := none, unstable := false } }
    let number : SeqNumber :=
      if s.events.lost ≠ none ∧ s.events.records.length < 512 then s.events.nextSeq + 1 else s.events.nextSeq
    let signal (drive : Bool) : Signal := { drive := drive, on := on, stamp := b.stamp, elapsed := b.start }
    let signalled (x : State) (p : Fin 8) : State := match s.port.image.pairs[p] with
      | none => x
      | some c =>
        let driven := if c.drive = k then takeSignal p c (signal true) x else x
        if c.detection = k then takeSignal p c (signal false) driven else driven
    let limited (x : State) (p : Fin 8) : State := match s.port.image.pairs[p], x.pairs[p] with
      | some c, .moving m expiry =>
        if on = true ∧ c.drive = k ∧ reached s.time.elapsed expiry = true then
          { offerRecord (stampNow x)
              (.movement (p.val + 1) .overtime { date := m.stamp.date, epoch := m.stamp.epoch } none) x with
            pairs := x.pairs.set p (.overdue m) }
        else x
      | _, _ => x
    ∃ m t : State, exec (.settleExpiry k) s = .next t ∧
      (cls = .none → m = offerRecord b.stamp (.stateChange k.val on b.bounces .notShared none) closed) ∧
      (cls ≠ .none →
        ∃ offered : State,
          offered = offerRecord b.stamp (.stateChange k.val on b.bounces .queued (some seq))
            { closed with line := { s.line with ownSeq := seq } } ∧
          m = { offered with
            line := { offered.line with txQueue := m.line.txQueue, nextOrder := m.line.nextOrder }
            events := { offered.events with records := writeBroadcast answer number offered.events.records } } ∧
          (answer = .queued → m.line.nextOrder = s.line.nextOrder + 1 ∧ m.line.txQueue.Perm
            ({ rank := priority, body := .notice (decide (cls = .urgent)) body, attempts := 0,
               eventSeq := some number, order := s.line.nextOrder, refreshed := false } :: s.line.txQueue)) ∧
          (answer ≠ .queued → m.line.nextOrder = s.line.nextOrder ∧ m.line.txQueue = s.line.txQueue)) ∧
      (s.events.records.length < 508 → s.events.lost = none →
        (∀ r ∈ s.events.records, r.seq ≠ s.events.nextSeq) →
        m.events.records = s.events.records ++ [{
          seq := s.events.nextSeq
          stamp := b.stamp
          body := if cls = .none then .stateChange k.val on b.bounces .notShared none
            else .stateChange k.val on b.bounces answer (some seq) }]) ∧
      (let observed : State := if b.stamp.timeState = .acquiring then m else takeObservation
         { own := true, origin := s.port.image.station, channel := k.val, state := on, date := b.stamp.date,
           epoch := b.stamp.epoch, timeState := b.stamp.timeState } m
       t = (List.finRange 8).foldl limited ((List.finRange 8).foldl signalled observed)) ∧
      t = { s with
        inputs := closed.inputs, line := m.line, events := t.events, checker := t.checker, report := t.report,
        pairs := t.pairs }

/-- R87 to R92, with the expiry of R89. Before its point LIMIT_EXPIRY changes nothing (assumption log 1). -/
def Obligations.MovementPairsFollowTheirTable : Prop :=
  ∀ (s : State) (k : Fin 8) (c : PairConfig) (g : Signal),
    (∀ m expiry, s.pairs[k] = .moving m expiry → s.port.station = .run → reached s.time.elapsed expiry = true →
      exec (.limitExpiry k) s = .next { offerRecord (stampNow s)
          (.movement (k.val + 1) .overtime { date := m.stamp.date, epoch := m.stamp.epoch } none) s with
        pairs := s.pairs.set k (.overdue m) }) ∧
    ((∀ m expiry, s.pairs[k] = .moving m expiry → reached s.time.elapsed expiry = false) →
      exec (.limitExpiry k) s = .next s) ∧
    (let moving : PairState :=
       .moving { stamp := g.stamp, elapsed := g.elapsed } (g.elapsed + usSpan (c.limitTenths * 100000))
     let closed (v : Verdict) (m : MovementStart) (next : PairState) : State :=
       { offerRecord g.stamp (.movement (k.val + 1) v { date := m.stamp.date, epoch := m.stamp.epoch }
           (some (elapsedSince g.elapsed m.elapsed))) s with pairs := s.pairs.set k next }
     (g.on = false → takeSignal k c g s = s) ∧
     (g.on = true → g.drive = true → s.pairs[k] = .idle →
       takeSignal k c g s = { s with pairs := s.pairs.set k moving }) ∧
     (g.on = true → g.drive = false → s.pairs[k] = .idle → takeSignal k c g s = s) ∧
     (∀ m expiry, g.on = true → s.pairs[k] = .moving m expiry →
       (g.drive = true → takeSignal k c g s = closed .restarted m moving) ∧
       (g.drive = false → elapsedSince g.elapsed m.elapsed < 2 ^ 47 →
         takeSignal k c g s = closed .normal m .idle) ∧
       (g.drive = false → 2 ^ 47 ≤ elapsedSince g.elapsed m.elapsed → takeSignal k c g s = s)) ∧
     (∀ m, g.on = true → s.pairs[k] = .overdue m →
       (g.drive = true → takeSignal k c g s = closed .restarted m moving) ∧
       (g.drive = false → elapsedSince g.elapsed m.elapsed < 2 ^ 47 →
         takeSignal k c g s = closed .lateEnd m .idle) ∧
       (g.drive = false → 2 ^ 47 ≤ elapsedSince g.elapsed m.elapsed → takeSignal k c g s = s)))

/-- R98 to R102 for one offer. -/
def Obligations.OfferedRecordsAreAdmittedOrAccounted : Prop :=
  ∀ (s : State) (stamp : Stamp) (body : EventBody), s.events.records.length ≤ 512 →
    let n := s.events.records.length
    let fits := if isFieldClass body = true then n < 508 else n < 512
    let d : DatedEpoch := { date := stamp.date, epoch := stamp.epoch }
    let lossRaised := raiseUrgent .eventLoss { date := s.time.date, epoch := s.time.epoch }
    (s.events.lost = none → fits → offerRecord stamp body s = { s with events := { s.events with
      records := s.events.records ++ [{ seq := s.events.nextSeq, stamp := stamp, body := body }]
      nextSeq := s.events.nextSeq + 1 } }) ∧
    (s.events.lost = none → ¬ fits → n < 512 → offerRecord stamp body s = lossRaised { s with events :=
      { s.events with
        records := s.events.records ++ [{ seq := s.events.nextSeq + 1, stamp := stampNow s, body := .gap 1 d d }]
        nextSeq := s.events.nextSeq + 2 } }) ∧
    (s.events.lost = none → n = 512 → offerRecord stamp body s = lossRaised { s with events :=
      { s.events with
        nextSeq := s.events.nextSeq + 1, lost := some { tally := 1, first := d, last := d } } }) ∧
    (∀ l, s.events.lost = some l → n = 512 → offerRecord stamp body s = lossRaised { s with events :=
      { s.events with
        nextSeq := s.events.nextSeq + 1
        lost := some { tally := min 65535 (l.tally + 1), first := l.first, last := d } } })

/-- R109, with the GAP record of R102, and the event record of R197 field by field. With n out of range on an empty queue,
RANGE comes first (assumption log 12). -/
def Obligations.TakeEventsRemovesTheOldest : Prop :=
  ∀ (s : State) (octet : Octet), s.port.station = .run →
    (octet.toNat = 0 ∨ 8 < octet.toNat →
      AnswersWith (.takeEvents { params := [octet], early := false }) s [1, 2]) ∧
    (1 ≤ octet.toNat → octet.toNat ≤ 8 → s.events.records = [] →
      AnswersWith (.takeEvents { params := [octet], early := false }) s [1, 4]) ∧
    (1 ≤ octet.toNat → octet.toNat ≤ 8 → s.events.records ≠ [] → s.events.records.length ≤ 512 →
      ∃ t, exec (.takeEvents { params := [octet], early := false }) s = .next t ∧
        (let taken := s.events.records.take octet.toNat
         t.port.answer = some (0 :: BitVec.ofNat 8 taken.length :: taken.flatMap eventRecordOctets) ∧
         ∀ r ∈ taken, EventLayout (eventRecordOctets r) r) ∧
        (s.events.lost = none →
          t.events = { s.events with records := s.events.records.drop octet.toNat }) ∧
        (∀ l, s.events.lost = some l → t.events = { s.events with
          records := s.events.records.drop octet.toNat ++
            [{ seq := s.events.nextSeq, stamp := stampNow s, body := .gap l.tally l.first l.last }]
          nextSeq := s.events.nextSeq + 1
          lost := none }) ∧
        t = { portExchange s t with events := t.events })

/-- The three reads of one record, by R110, R153 and R124, with the layouts and the codes of R197. -/
def Obligations.ReadsReturnTheirRecordAndChangeNothing : Prop :=
  RecordCodes ∧ ∀ s : State, s.port.station = .run →
    (∀ params : List Octet, params.length = 2 →
      (∀ r, s.events.records[field params 0 2]? = some r →
        AnswersWith (.peekEvent { params := params, early := false }) s (0 :: eventRecordOctets r) ∧
        EventLayout (eventRecordOctets r) r) ∧
      (s.events.records.length ≤ field params 0 2 →
        AnswersWith (.peekEvent { params := params, early := false }) s [1, 2])) ∧
    (∀ params : List Octet, params.length = 2 →
      (∀ slot : Fin 256, field params 0 2 = slot.val →
        AnswersWith (.readEntry { params := params, early := false }) s (0 :: entryOctets slot s.checker.slots[slot]) ∧
        EntryLayout (entryOctets slot s.checker.slots[slot]) slot s.checker.slots[slot]) ∧
      (255 < field params 0 2 → AnswersWith (.readEntry { params := params, early := false }) s [1, 2])) ∧
    (∀ origin : Octet,
      (∀ k : Fin 62, origin.toNat = k.val + 1 →
        AnswersWith (.readHeard { params := [origin], early := false }) s
          (0 :: heardOctets origin.toNat s.line.heard[k]) ∧
        HeardLayout (heardOctets origin.toNat s.line.heard[k]) origin.toNat s.line.heard[k]) ∧
      (origin.toNat = 0 ∨ 62 < origin.toNat →
        AnswersWith (.readHeard { params := [origin], early := false }) s [1, 2]))

/-- R137 to R139 and R141, one item at a time: after the first item the run is that of the new head's command. A
run goes on whole inside one command (assumption log 8); where an item goes among dates that have no order is the model's
choice (assumption log 37); before its point a command changes nothing (assumption log 1). -/
def Obligations.DueItemsFireInListOrder : Prop :=
  ∀ (s : State) (d : Deadline) (rest : List Deadline) (e : CheckEntry) (dates : EntryDates),
    s.port.station = .run → s.checker.deadlines = d :: rest → s.checker.slots[d.slot] = some e →
    e.dates = some dates →
    (∀ kind, s.agreement.timeState = .acquiring ∨ 0 < dateDiff d.date s.time.date ∨ d.kind ≠ kind →
      exec (fireCommand kind) s = .next s) ∧
    (s.agreement.timeState ≠ .acquiring → dateDiff d.date s.time.date ≤ 0 →
      let missed : Option Nat := if h : 1 ≤ e.origin ∧ e.origin ≤ 62 then
        some (s.line.heard[e.origin - 1]'(by omega)).missed else none
      let silent : Bool := if h : 1 ≤ e.origin ∧ e.origin ≤ 62 then
        (s.line.heard[e.origin - 1]'(by omega)).presence != .present else false
      let armed : State := { s with checker := { s.checker with
        slots := s.checker.slots.set d.slot (some { e with
          status := .armed, armingDate := some s.time.date, snapshot := missed })
        deadlines := insertDeadline { date := dates.missDeadline, slot := d.slot, kind := .miss } rest } }
      let lost : Bool := silent || (match missed, e.snapshot with
        | some n, some before => decide (before < n)
        | _, _ => false)
      let unmatched : State := { s with checker := { s.checker with
        slots := s.checker.slots.set d.slot (some { e with
          status := if lost = true then .unobservable else .missed })
        deadlines := rest } }
      let handed : State := handDeviation (if lost = true then .unobservable else .missed) d.slot e dates.due none
        unmatched
      let fired : State := if d.kind = .opening then armed
        else { handed with checker := voidSuccessors d.slot handed.checker }
      ∃ t, (d.kind = .opening → exec .openFire s = .next t) ∧ (d.kind = .miss → exec .missFire s = .next t) ∧
        dueDeadline t = none ∧
        (dueDeadline fired = none → t = fired) ∧
        (∀ next, dueDeadline fired = some next → exec (fireCommand next.kind) fired = .next t) ∧
        t = { s with checker := t.checker, report := t.report })

/-- R143 down the chains; R142 with the dates of R134 and the items of R135. -/
def Obligations.ChainsFollowTheirPredecessor : Prop :=
  ∀ (img : Image) (slot : Fin 256) (base : Date) (c : Checker),
    (let v := voidSuccessors slot c
     v = { c with slots := v.slots } ∧
     ∀ j : Fin 256,
       (v.slots[j] = c.slots[j] ∨ ∃ e p, c.slots[j] = some e ∧ e.status = .waiting ∧
          v.slots[j] = some { e with status := .void } ∧ e.predecessor = some p ∧
          (p = slot ∨ v.slots[p] ≠ c.slots[p])) ∧
       (∀ e, v.slots[j] = some e → e.status = .waiting → e.predecessor ≠ some slot ∧
          ∀ p, e.predecessor = some p → v.slots[p] = c.slots[p])) ∧
    (let n := successorsPending img slot base c
     let dueOf (e : CheckEntry) : Date := match e.dueKind with
       | .absolute d => d
       | .relative ms => dateAdd base ((ms * 1000 : Nat) : Int)
     let opening (e : CheckEntry) : Date :=
       dateAdd (dueOf e) (-((e.earlyMs * 1000 + img.watchLead * 1000000 : Nat) : Int))
     (∀ (j : Fin 256) (e : CheckEntry), c.slots[j] = some e → e.status = .waiting → e.predecessor = some slot →
       n.slots[j] = some { e with status := .pending, dates := some {
         due := dueOf e, opening := opening e,
         missDeadline := dateAdd (dueOf e) ((e.lateMs * 1000 + img.grace * 1000 : Nat) : Int) } } ∧
       { date := opening e, slot := j, kind := .opening } ∈ n.deadlines) ∧
     (∀ j : Fin 256, (∀ e, c.slots[j] = some e → e.status = .waiting → e.predecessor ≠ some slot) →
       n.slots[j] = c.slots[j] ∧ itemsOf j n = itemsOf j c) ∧
     n.refused = c.refused ∧ n.unmatched = c.unmatched)

/-- R131 and R132. What fires before the answer is what OPEN_FIRE or MISS_FIRE does next (R137). Where the item goes among
dates that have no order is the model's choice (assumption log 37). -/
def Obligations.LoadEntryPlacesOrRefuses : Prop :=
  ∀ (s : State) (params : List Octet), s.port.station = .run → params.length = 27 →
    (255 < field params 0 2 → AnswersWith (.loadEntry { params := params, early := false }) s [1, 2]) ∧
    (∀ slot : Fin 256, field params 0 2 = slot.val →
      (s.checker.slots[slot] ≠ none → AnswersWith (.loadEntry { params := params, early := false }) s [1, 1]) ∧
      (s.checker.slots[slot] = none → loadFields slot params = none →
        AnswersWith (.loadEntry { params := params, early := false }) s [1, 2]) ∧
      (∀ f, s.checker.slots[slot] = none → loadFields slot params = some f →
        let img := s.port.image
        let dates (due : Date) : EntryDates :=
          { due := due,
            opening := dateAdd due (-((f.earlyMs * 1000 + img.watchLead * 1000000 : Nat) : Int)),
            missDeadline := dateAdd due ((f.lateMs * 1000 + img.grace * 1000 : Nat) : Int) }
        let bad := f.origin = img.station ∨
          (∃ p, f.predecessor = some p ∧ (p = slot ∨ s.checker.slots[p] = none)) ∨
          (f.predecessor = none ∧ ∃ ms, f.dueKind = .relative ms) ∨
          (∃ due, f.dueKind = .absolute due ∧ dateDiff (dates due).missDeadline s.time.date ≤ 0)
        let placed (st : EntryStatus) (d : Option EntryDates) : Checker := { s.checker with
          slots := s.checker.slots.set slot (some { loadedEntry f st with dates := d }) }
        let pending (due : Date) : State := { s with checker := { placed .pending (some (dates due)) with
          deadlines := insertDeadline { date := (dates due).opening, slot := slot, kind := .opening }
            s.checker.deadlines } }
        (bad → AnswersWith (.loadEntry { params := params, early := false }) s [1, 2]) ∧
        (¬ bad → dueDeadline s = none →
          ∃ t, exec (.loadEntry { params := params, early := false }) s = .next t ∧ t.port.answer = some [0] ∧
            t = { portExchange s t with checker := t.checker, report := t.report } ∧
            (∀ p e, f.predecessor = some p → s.checker.slots[p] = some e →
              (e.status = .waiting ∨ e.status = .pending ∨ e.status = .armed →
                t.checker = placed .waiting none ∧ t.report = s.report) ∧
              (e.status = .missed ∨ e.status = .unobservable ∨ e.status = .cleared ∨ e.status = .void →
                t.checker = placed .void none ∧ t.report = s.report)) ∧
            (∀ due,
              ((∃ p e, f.predecessor = some p ∧ s.checker.slots[p] = some e ∧ e.status = .satisfied) ∨
                f.predecessor = none) → f.dueKind = .absolute due →
              (dueDeadline (pending due) = none →
                t.checker = (pending due).checker ∧ t.report = s.report) ∧
              (∀ d, dueDeadline (pending due) = some d → ∃ u, exec (fireCommand d.kind) (pending due) = .next u ∧
                t.checker = u.checker ∧ t.report = u.report)) ∧
            (∀ p e m ms, f.predecessor = some p → s.checker.slots[p] = some e → e.status = .satisfied →
              e.matched = some m → f.dueKind = .relative ms →
              let due := dateAdd m.date ((ms * 1000 : Nat) : Int)
              (dueDeadline (pending due) = none →
                t.checker = (pending due).checker ∧ t.report = s.report) ∧
              (∀ d, dueDeadline (pending due) = some d → ∃ u, exec (fireCommand d.kind) (pending due) = .next u ∧
                t.checker = u.checker ∧ t.report = u.report)))))

/-- The four steps of R144. -/
def Obligations.CancelEntryEmptiesTheSlot : Prop :=
  ∀ (s : State) (params : List Octet), s.port.station = .run → params.length = 2 →
    (255 < field params 0 2 → AnswersWith (.cancelEntry { params := params, early := false }) s [1, 2]) ∧
    (∀ slot : Fin 256, field params 0 2 = slot.val →
      (s.checker.slots[slot] = none → AnswersWith (.cancelEntry { params := params, early := false }) s [1, 1]) ∧
      (s.checker.slots[slot] ≠ none →
        ∃ t, exec (.cancelEntry { params := params, early := false }) s = .next t ∧ t.port.answer = some [0] ∧
          t.checker.deadlines = s.checker.deadlines.filter (fun d => decide (d.slot ≠ slot)) ∧
          t.checker.slots[slot] = none ∧
          (∀ j : Fin 256, j ≠ slot → t.checker.slots[j] = (voidSuccessors slot s.checker).slots[j].map fun e =>
            if e.predecessor = some slot then { e with predecessor := none } else e) ∧
          t.checker.refused = s.checker.refused ∧ t.checker.unmatched = s.checker.unmatched ∧
          t = { portExchange s t with checker := t.checker }))

/-- R145 to R150: which entry an observation acts on, and all that it does. Of entries whose due dates have no order by R7
none is the first here; the model's choice among them is assumption log 37. -/
def Obligations.ObservationSatisfiesOrClearsOneEntry : Prop :=
  ∀ (o : Observation) (s : State),
    let due (e : CheckEntry) : Date := (e.dates.map (·.due)).getD { day := 0, us := 0 }
    let early (e : CheckEntry) : Date := dateAdd (due e) (-((e.earlyMs * 1000 : Nat) : Int))
    let late (e : CheckEntry) : Date := dateAdd (due e) ((e.lateMs * 1000 : Nat) : Int)
    let meets (e : CheckEntry) : Prop :=
      (e.origin = 0 ∧ o.own = true ∨ e.origin = 63 ∨
        e.origin ≠ 0 ∧ e.origin ≠ 63 ∧ o.own = false ∧ o.origin = e.origin) ∧ o.channel = e.channel ∧
      (e.state = .any ∨ e.state = .on ∧ o.state = true ∨ e.state = .off ∧ o.state = false)
    let open_ (e : CheckEntry) : Prop := e.status = .armed ∧ meets e ∧
      ∃ dates, e.dates = some dates ∧ dateDiff dates.opening o.date ≤ 0
    let clears (e : CheckEntry) : Prop := (e.status = .missed ∨ e.status = .unobservable) ∧ meets e ∧
      e.dates ≠ none ∧ dateDiff (early e) o.date ≤ 0 ∧ dateDiff o.date (late e) ≤ 0
    let first (p : CheckEntry → Prop) (k : Fin 256) (e : CheckEntry) : Prop :=
      s.checker.slots[k] = some e ∧ p e ∧ ∀ j e', j ≠ k → s.checker.slots[j] = some e' → p e' →
        0 ≤ dateDiff (due e') (due e) ∧ (k < j ∨ dateDiff (due e) (due e') < 0)
    let none_ (p : CheckEntry → Prop) : Prop := ∀ (j : Fin 256) (e : CheckEntry), s.checker.slots[j] = some e → ¬ p e
    let seen : Matched := { origin := o.origin, date := o.date, epoch := o.epoch }
    (o.timeState = .acquiring → takeObservation o s = { s with checker := { s.checker with
      refused := min 65535 (s.checker.refused + 1) } }) ∧
    (o.timeState ≠ .acquiring →
      (∀ k e, first open_ k e →
        let verdict : CheckVerdict := if dateDiff o.date (early e) < 0 then .early
          else if dateDiff (late e) o.date < 0 then .late else .onTime
        let satisfied : CheckEntry := { e with
          status := .satisfied, verdict := some verdict, matched := some seen }
        let settled : State := { s with checker := { s.checker with
          slots := s.checker.slots.set k (some satisfied)
          deadlines := s.checker.deadlines.filter fun d => decide (d.slot ≠ k) } }
        let reported : State := match verdict with
          | .onTime => settled
          | .early => handDeviation .early k satisfied (due e) (some (seen, o.timeState)) settled
          | .late => handDeviation .late k satisfied (due e) (some (seen, o.timeState)) settled
        takeObservation o s = runDeadlines { reported with
          checker := successorsPending s.port.image k o.date reported.checker }) ∧
      (∀ k e, none_ open_ → first clears k e →
        let cleared : CheckEntry := { e with status := .cleared, matched := some seen }
        takeObservation o s = handDeviation .cleared k cleared (due e) (some (seen, o.timeState))
          { s with checker := { s.checker with slots := s.checker.slots.set k (some cleared) } }) ∧
      (none_ open_ → none_ clears → takeObservation o s = { s with checker := { s.checker with
        unmatched := min 65535 (s.checker.unmatched + 1) } }))

/-- R155 to R159 for one deviation, with ATTENTION (R166). -/
def Obligations.DeviationsAreMadeAndPlacedByGrade : Prop :=
  ∀ (kind : DeviationKind) (slot : Fin 256) (e : CheckEntry) (due : Date) (obs : Option (Matched × TimeState))
      (s : State),
    let r := s.report
    let settled (ts : TimeState) : Bool := decide (ts = .agreed ∨ ts = .referenced)
    let record : Deviation :=
      { seq := r.nextSeq, kind := kind, slot := slot.val, grade := e.grade, due := due
        observation := obs.map fun o => { origin := o.1.origin, date := o.1.date, epoch := o.1.epoch,
                                          differenceMs := (dateDiff o.1.date due).tdiv 1000 }
        doubt := !settled s.agreement.timeState || (obs.map fun o => !settled o.2).getD false }
    let place (l : List Deviation) : List Deviation :=
      l.filter (fun x => decide (e.grade ≤ x.grade)) ++ record :: l.filter (fun x => decide (x.grade < e.grade))
    let t := handDeviation kind slot e due obs s
    t = { s with report := t.report } ∧ t.report.nextSeq = r.nextSeq + 1 ∧ t.report.urgent = r.urgent ∧
    (t.report.attention = true ↔ (∃ k : Fin 7, r.urgent[k].flag = true) ∨
      ∃ d rest, t.report.deviations = d :: rest ∧ s.port.image.attention ≤ d.grade) ∧
    (r.deviations.length < 64 → r.deviations.Pairwise (fun a b => b.grade ≤ a.grade) →
      t.report.deviations = place r.deviations ∧ t.report.displaced = r.displaced) ∧
    (64 ≤ r.deviations.length → ∀ last, r.deviations.getLast? = some last →
      t.report.displaced = min 65535 (r.displaced + 1) ∧
      (last.grade < e.grade → r.deviations.Pairwise (fun a b => b.grade ≤ a.grade) →
        t.report.deviations = place r.deviations.dropLast) ∧
      (e.grade ≤ last.grade → t.report.deviations = r.deviations))

/-- R162 and R164, with TAKE DEVIATION (R160), its record field by field (R197), and ATTENTION (R166). -/
def Obligations.UrgentConditionsLatchAndClear : Prop :=
  ∀ s : State,
    (∀ (c : Urgent) (d : DatedEpoch),
      let t := raiseUrgent c d s
      t.report.urgent[urgentIndex c] =
        (if s.report.urgent[urgentIndex c].flag = true then
          { s.report.urgent[urgentIndex c] with count := min 255 (s.report.urgent[urgentIndex c].count + 1) }
         else { flag := true, count := 1, first := some d }) ∧
      (∀ k : Fin 7, k ≠ urgentIndex c → t.report.urgent[k] = s.report.urgent[k]) ∧
      t.report.attention = true ∧
      t = { s with report := { s.report with urgent := t.report.urgent, attention := true } }) ∧
    (s.port.station = .run →
      (∀ set : Octet, 128 ≤ set.toNat → AnswersWith (.clearUrgent { params := [set], early := false }) s [1, 2]) ∧
      (∀ set : Octet, set.toNat < 128 →
        ∃ t, exec (.clearUrgent { params := [set], early := false }) s = .next t ∧ t.port.answer = some [0] ∧
          (∀ k : Fin 7, t.report.urgent[k] =
            (if set.getLsbD k.val = true then { flag := false, count := 0, first := none } else s.report.urgent[k])) ∧
          (t.report.attention = true ↔ (∃ k : Fin 7, t.report.urgent[k].flag = true) ∨
            ∃ d rest, s.report.deviations = d :: rest ∧ s.port.image.attention ≤ d.grade) ∧
          t = { portExchange s t with report := { s.report with
            urgent := t.report.urgent, attention := t.report.attention } }) ∧
      (s.report.deviations = [] → AnswersWith (.takeDeviation { params := [], early := false }) s [1, 4]) ∧
      (∀ d rest, s.report.deviations = d :: rest →
        ∃ t, exec (.takeDeviation { params := [], early := false }) s = .next t ∧
          t.port.answer = some (0 :: deviationOctets d) ∧ DeviationLayout (deviationOctets d) d ∧
          (t.report.attention = true ↔ (∃ k : Fin 7, s.report.urgent[k].flag = true) ∨
            ∃ d' rest', rest = d' :: rest' ∧ s.port.image.attention ≤ d'.grade) ∧
          t = { portExchange s t with report := { s.report with
            deviations := rest, attention := t.report.attention } }))

/-- R172 and R173. The decision is that of PULSE_START on each line. That each SUPPLY_CHANGE is a sample of its own is the
model's choice (assumption log 13). -/
def Obligations.SupplySuspendsAndResumesTheLines : Prop :=
  ∀ (s : State) (v : Supply),
    (s.port.station = .notQualified → exec (.supplyChange v) s = .next { s with pins := { s.pins with supply := v } }) ∧
    (s.port.station ≠ .notQualified →
      let cause := v = .reduced ∨ s.agreement.timeState = .notStarted ∨ s.agreement.timeState = .acquiring
      ∃ t u, exec (.supplyChange v) s = .next t ∧
        u = { s with pins := { s.pins with supply := v }, supply := v, clocks := u.clocks } ∧
        t = { u with clocks := t.clocks } ∧
        (∀ k : Fin 4, u.clocks[k] = { s.clocks[k] with state := u.clocks[k].state }) ∧
        (∀ k : Fin 4, cause → u.clocks[k].state =
          (if s.clocks[k].state = .active then .suspended else s.clocks[k].state)) ∧
        (∀ k : Fin 4, ¬ cause → u.clocks[k].state =
          (if s.clocks[k].state = .suspended then .active else s.clocks[k].state)) ∧
        (∀ k : Fin 4, ∃ w, exec (.pulseStart k) u = .next w ∧ t.clocks[k] = w.clocks[k]) ∧
        (cause → t.clocks = u.clocks))

/-- R174 to R177 at one moment. A boundary that has not come changes nothing but what R176 calls for (assumption log
1). -/
def Obligations.PulsesStartByLagHoldAndSpacing : Prop :=
  ∀ (s : State) (k : Fin 4),
    (s.port.station ≠ .run ∨ s.port.image.lines[k] = none ∨ s.clocks[k].state ≠ .active ∨
        s.clocks[k].pulse ≠ none →
      exec (.pulseStart k) s = .next s) ∧
    (∀ c dial, s.port.station = .run → s.port.image.lines[k] = some c → s.clocks[k].state = .active →
      s.clocks[k].pulse = none → s.clocks[k].dial = some dial → c.stepSeconds = 30 ∨ c.stepSeconds = 60 →
      dial < 43200 / c.stepSeconds →
      let steps := 43200 / c.stepSeconds
      let target := s.time.date.us % 43200000000 / (c.stepSeconds * 1000000)
      let ahead := (dial + steps - target) % steps
      let hold := c.holdMinutes * 60 / c.stepSeconds
      let spaced := ∀ last, s.clocks[k].lastStart = some last →
        c.spacingSeconds * 1000000 ≤ elapsedSince s.time.elapsed last
      target < steps ∧
      (dial = target ∨ (1 ≤ ahead ∧ ahead ≤ hold) ∨ ¬ spaced → exec (.pulseStart k) s = .next s) ∧
      (dial ≠ target → hold < ahead → spaced → exec (.pulseStart k) s = .next { s with
        clocks := s.clocks.set k { s.clocks[k] with
          pulse := some { start := s.time.elapsed, polarity := s.clocks[k].nextPolarity, seenOn := false }
          lastStart := some s.time.elapsed
          driveA := decide (s.clocks[k].nextPolarity = .a)
          driveB := decide (s.clocks[k].nextPolarity = .b) } })) ∧
    (∃ t, exec (.stepBoundary k) s = .next t ∧
      exec (.pulseStart k) { s with time := { s.time with boundaryDue := s.time.boundaryDue.set k false } } = .next t)

/-- R177 to R180, then R176 as PULSE_START applies it. Before its point the command changes nothing (assumption log 1);
that the level standing when the pulse ends was sampled in its second half is the model's choice (assumption log 13). -/
def Obligations.PulseEndsProvenOrUnproven : Prop :=
  ∀ (s : State) (k : Fin 4),
    (s.clocks[k].pulse = none → exec (.pulseEnd k) s = .next s) ∧
    (∀ c p, s.port.image.lines[k] = some c → s.clocks[k].pulse = some p →
      (reached s.time.elapsed (p.start + usSpan (c.widthMs * 1000)) = false → exec (.pulseEnd k) s = .next s) ∧
      (reached s.time.elapsed (p.start + usSpan (c.widthMs * 1000)) = true →
        let released : ClockLine := { s.clocks[k] with pulse := none, driveA := false, driveB := false }
        (p.seenOn = true ∨ s.pins.levels[c.proving] = true →
          ∃ t, exec (.pulseEnd k) s = .next t ∧
            exec (.pulseStart k) { s with clocks := s.clocks.set k { released with
              dial := s.clocks[k].dial.map fun d => (d + 1) % (43200 / c.stepSeconds)
              nextPolarity := if s.clocks[k].nextPolarity = .a then .b else .a
              unproven := 0 } } = .next t) ∧
        (p.seenOn = false → s.pins.levels[c.proving] = false → s.clocks[k].unproven < 2 →
          ∃ t, exec (.pulseEnd k) s = .next t ∧
            exec (.pulseStart k) { s with clocks := s.clocks.set k { released with
              unproven := s.clocks[k].unproven + 1 } } = .next t) ∧
        (p.seenOn = false → s.pins.levels[c.proving] = false → s.clocks[k].unproven = 2 →
          exec (.pulseEnd k) s = .next (raiseUrgent .clockLineFault { date := s.time.date, epoch := s.time.epoch }
            { s with clocks := s.clocks.set k { released with unproven := 3, state := .fault } }))))

/-- R182 in the order of its table. The decision is that of PULSE_START. -/
def Obligations.SetDialPlacesTheHands : Prop :=
  ∀ (s : State) (number : Octet) (params : List Octet), s.port.station = .run → params.length = 2 →
    let command : Instr := .setDial { params := number :: params, early := false }
    let position := field params 0 2
    (number.toNat = 0 ∨ 4 < number.toNat → AnswersWith command s [1, 2]) ∧
    (∀ k : Fin 4, number.toNat = k.val + 1 →
      (s.port.image.lines[k] = none → AnswersWith command s [1, 1]) ∧
      (∀ c, s.port.image.lines[k] = some c →
        (s.clocks[k].pulse ≠ none → AnswersWith command s [1, 1]) ∧
        (s.clocks[k].pulse = none → 43200 / c.stepSeconds ≤ position → AnswersWith command s [1, 2]) ∧
        (s.clocks[k].pulse = none → position < 43200 / c.stepSeconds →
          let cause := s.supply = .reduced ∨ s.agreement.timeState = .notStarted ∨
            s.agreement.timeState = .acquiring
          ∃ t w u, exec command s = .next t ∧ t.port.answer = some [0] ∧
            u = { s with clocks := s.clocks.set k { s.clocks[k] with
              dial := some position, nextPolarity := .a, unproven := 0, state := u.clocks[k].state } } ∧
            (s.clocks[k].state = .unset ∨ s.clocks[k].state = .fault →
              (cause → u.clocks[k].state = .suspended) ∧ (¬ cause → u.clocks[k].state = .active)) ∧
            (s.clocks[k].state = .active ∨ s.clocks[k].state = .suspended →
              u.clocks[k].state = s.clocks[k].state) ∧
            exec (.pulseStart k) u = .next w ∧ t = { portExchange s t with clocks := w.clocks })))

/-- The register of R196 over the header and body bits of R195 in their order, and what it catches: any one wrong bit of any
field of a frame, kind and check among them. -/
def Obligations.CheckDetectsASingleWrongBit : Prop :=
  let bits {n : Nat} (w : BitVec n) : List Bool := (List.range n).map fun k => w.getLsbD (n - 1 - k)
  (crc16 [] = 0xFFFF#16 ∧ ∀ (sent : List Bool) (bit : Bool), crc16 (sent ++ [bit]) =
      if (bit != (crc16 sent).getLsbD 15) = true then (crc16 sent <<< 1) ^^^ (1#16 <<< 12 ||| 1#16 <<< 5 ||| 1#16)
      else crc16 sent <<< 1) ∧
    (∀ (before after : List Bool) (bit : Bool),
      crc16 (before ++ bit :: after) ≠ crc16 (before ++ (!bit) :: after)) ∧
    (∀ (rank : BitVec 4) (origin : BitVec 6) (b : TimeBody), timeFrameCheck rank origin b = crc16
      (bits 0b00#2 ++ bits rank ++ bits origin ++ bits b.day ++ bits b.us ++ bits b.epoch ++ bits b.timeState)) ∧
    (∀ (urgent : Bool) (rank : BitVec 4) (origin : BitVec 6) (b : NoticeBody),
      noticeFrameCheck urgent rank origin b = crc16
        (bits (if urgent = true then 0b01#2 else 0b10#2) ++ bits rank ++ bits origin ++ bits b.channel ++
          [b.newState] ++ bits b.seq ++ bits b.day ++ bits b.us ++ bits b.epoch ++ bits b.timeState)) ∧
    (∀ (rank : BitVec 4) (origin : BitVec 6) (b : PresenceBody), presenceFrameCheck rank origin b = crc16
      (bits 0b11#2 ++ bits rank ++ bits origin ++ bits b.timeState ++ bits b.grade ++ bits b.epoch ++
        bits b.lastSeq ++ bits b.standing)) ∧
    (∀ (kind : BitVec 2) (rest : List Bool), ∀ i < 2,
      crc16 (bits (kind ^^^ (1#2 <<< i)) ++ rest) ≠ crc16 (bits kind ++ rest)) ∧
    (∀ rank origin body, timeFrameGood (sealTime rank origin body) = true) ∧
    (∀ urgent rank origin body, noticeFrameGood (sealNotice urgent rank origin body) = true) ∧
    (∀ rank origin body, presenceFrameGood (sealPresence rank origin body) = true) ∧
    (∀ f : TimeFrame, timeFrameGood f = true →
      (∀ i < 4, timeFrameGood { f with rank := f.rank ^^^ (1#4 <<< i) } = false) ∧
      (∀ i < 6, timeFrameGood { f with origin := f.origin ^^^ (1#6 <<< i) } = false) ∧
      (∀ i < 16, timeFrameGood { f with body := { f.body with day := f.body.day ^^^ (1#16 <<< i) } } = false) ∧
      (∀ i < 37, timeFrameGood { f with body := { f.body with us := f.body.us ^^^ (1#37 <<< i) } } = false) ∧
      (∀ i < 8, timeFrameGood { f with body := { f.body with epoch := f.body.epoch ^^^ (1#8 <<< i) } } = false) ∧
      (∀ i < 3, timeFrameGood { f with body := { f.body with
        timeState := f.body.timeState ^^^ (1#3 <<< i) } } = false) ∧
      (∀ i < 16, timeFrameGood { f with check := f.check ^^^ (1#16 <<< i) } = false)) ∧
    (∀ f : NoticeFrame, noticeFrameGood f = true →
      noticeFrameGood { f with urgent := !f.urgent } = false ∧
      (∀ i < 4, noticeFrameGood { f with rank := f.rank ^^^ (1#4 <<< i) } = false) ∧
      (∀ i < 6, noticeFrameGood { f with origin := f.origin ^^^ (1#6 <<< i) } = false) ∧
      (∀ i < 6, noticeFrameGood { f with body := { f.body with
        channel := f.body.channel ^^^ (1#6 <<< i) } } = false) ∧
      noticeFrameGood { f with body := { f.body with newState := !f.body.newState } } = false ∧
      (∀ i < 8, noticeFrameGood { f with body := { f.body with seq := f.body.seq ^^^ (1#8 <<< i) } } = false) ∧
      (∀ i < 16, noticeFrameGood { f with body := { f.body with day := f.body.day ^^^ (1#16 <<< i) } } = false) ∧
      (∀ i < 37, noticeFrameGood { f with body := { f.body with us := f.body.us ^^^ (1#37 <<< i) } } = false) ∧
      (∀ i < 8, noticeFrameGood { f with body := { f.body with epoch := f.body.epoch ^^^ (1#8 <<< i) } } = false) ∧
      (∀ i < 3, noticeFrameGood { f with body := { f.body with
        timeState := f.body.timeState ^^^ (1#3 <<< i) } } = false) ∧
      (∀ i < 16, noticeFrameGood { f with check := f.check ^^^ (1#16 <<< i) } = false)) ∧
    (∀ f : PresenceFrame, presenceFrameGood f = true →
      (∀ i < 4, presenceFrameGood { f with rank := f.rank ^^^ (1#4 <<< i) } = false) ∧
      (∀ i < 6, presenceFrameGood { f with origin := f.origin ^^^ (1#6 <<< i) } = false) ∧
      (∀ i < 3, presenceFrameGood { f with body := { f.body with
        timeState := f.body.timeState ^^^ (1#3 <<< i) } } = false) ∧
      (∀ i < 4, presenceFrameGood { f with body := { f.body with grade := f.body.grade ^^^ (1#4 <<< i) } } = false) ∧
      (∀ i < 8, presenceFrameGood { f with body := { f.body with epoch := f.body.epoch ^^^ (1#8 <<< i) } } = false) ∧
      (∀ i < 8, presenceFrameGood { f with body := { f.body with
        lastSeq := f.body.lastSeq ^^^ (1#8 <<< i) } } = false) ∧
      (∀ i < 2, presenceFrameGood { f with body := { f.body with
        standing := f.body.standing ^^^ (1#2 <<< i) } } = false) ∧
      (∀ i < 16, presenceFrameGood { f with check := f.check ^^^ (1#16 <<< i) } = false))

/-- `TimeBaseLegal` from every state, not only from those a run reaches. -/
def Obligations.StepKeepsTheTimeBaseLegal : Prop :=
  ∀ s t : State, TimeBaseLegal s.time → step s = .next t → TimeBaseLegal t.time

/-- `StationLegal`, `GradeLegal` (in HOLDOVER the bounds of R47, the aging being `HoldoverIsEnteredAndAges`) and
`ConfigurationLegal`, kept together. -/
def Obligations.StepKeepsStationGradeAndConfiguration : Prop :=
  ∀ s t : State, StationLegal s → GradeLegal s.agreement → ConfigurationLegal s → step s = .next t →
    StationLegal t ∧ GradeLegal t.agreement ∧ ConfigurationLegal t

/-- `TransmitQueueLegal`, the order of R39 within it, and `StandingLegal`, kept together. -/
def Obligations.StepKeepsQueueAndStanding : Prop :=
  ∀ s t : State, TransmitQueueLegal s.line → StandingLegal s.line → step s = .next t →
    TransmitQueueLegal t.line ∧ StandingLegal t.line

/-- `EventQueueLegal`, kept by every command and by the idle station. -/
def Obligations.StepKeepsTheEventQueueLegal : Prop :=
  ∀ s t : State, EventQueueLegal s.events → step s = .next t → EventQueueLegal t.events

/-- `DeadlinesLegal`, the promise of R136, through loading, cancelling, firing, matching and chains; and the order of R136,
while the dates that order the list lie within half a cycle, without which dates have no order (R7). -/
def Obligations.StepKeepsTheDeadlineListLegal : Prop :=
  ∀ s t : State, DeadlinesLegal s.checker → step s = .next t → DeadlinesLegal t.checker ∧
    ∀ base, DatesWithinHalfCycle base s.checker t.checker → DeadlinesOrdered s.checker → DeadlinesOrdered t.checker

/-- `AttentionLegal` and `DeviationsLegal`. That ATTENTION follows the threshold at a CONFIGURE is the model's choice
(assumption log 28). -/
def Obligations.StepKeepsDeviationsAndAttention : Prop :=
  ∀ s t : State, AttentionLegal s → DeviationsLegal s.report → step s = .next t →
    AttentionLegal t ∧ DeviationsLegal t.report

/-- `ClocksLegal` and `SuspensionLegal`, with `StationLegal` on which the suspension of CONFIG rests. -/
def Obligations.StepKeepsTheClockLinesLegal : Prop :=
  ∀ s t : State, StationLegal s → ClocksLegal s → SuspensionLegal s → step s = .next t →
    ClocksLegal t ∧ SuspensionLegal t
end

