-- ==== Sys2Proof/Laws/State.lean ====
section
/-! SUPPORT. The frame of each operation over the state: the blocks it leaves as they are, one lemma for each field. -/

namespace Sys2Proof.Machine

@[simp] theorem raiseUrgent_frame (c : Urgent) (d : DatedEpoch) (s : State) :
    (raiseUrgent c d s).pending = s.pending ∧ (raiseUrgent c d s).pins = s.pins ∧
    (raiseUrgent c d s).time = s.time ∧ (raiseUrgent c d s).agreement = s.agreement ∧
    (raiseUrgent c d s).line = s.line ∧ (raiseUrgent c d s).inputs = s.inputs ∧
    (raiseUrgent c d s).pairs = s.pairs ∧ (raiseUrgent c d s).events = s.events ∧
    (raiseUrgent c d s).checker = s.checker ∧ (raiseUrgent c d s).clocks = s.clocks ∧
    (raiseUrgent c d s).supply = s.supply ∧ (raiseUrgent c d s).port = s.port ∧
    (raiseUrgent c d s).freeCount = s.freeCount := by simp [raiseUrgent]

@[simp] theorem raiseUrgentNow_frame (c : Urgent) (s : State) :
    (raiseUrgentNow c s).pending = s.pending ∧ (raiseUrgentNow c s).pins = s.pins ∧
    (raiseUrgentNow c s).time = s.time ∧ (raiseUrgentNow c s).agreement = s.agreement ∧
    (raiseUrgentNow c s).line = s.line ∧ (raiseUrgentNow c s).inputs = s.inputs ∧
    (raiseUrgentNow c s).pairs = s.pairs ∧ (raiseUrgentNow c s).events = s.events ∧
    (raiseUrgentNow c s).checker = s.checker ∧ (raiseUrgentNow c s).clocks = s.clocks ∧
    (raiseUrgentNow c s).supply = s.supply ∧ (raiseUrgentNow c s).port = s.port ∧
    (raiseUrgentNow c s).freeCount = s.freeCount := by simp [raiseUrgentNow]

@[simp] theorem offerRecord_frame (stamp : Stamp) (body : EventBody) (s : State) :
    (offerRecord stamp body s).pending = s.pending ∧ (offerRecord stamp body s).pins = s.pins ∧
    (offerRecord stamp body s).time = s.time ∧ (offerRecord stamp body s).agreement = s.agreement ∧
    (offerRecord stamp body s).line = s.line ∧ (offerRecord stamp body s).inputs = s.inputs ∧
    (offerRecord stamp body s).pairs = s.pairs ∧ (offerRecord stamp body s).checker = s.checker ∧
    (offerRecord stamp body s).clocks = s.clocks ∧ (offerRecord stamp body s).supply = s.supply ∧
    (offerRecord stamp body s).port = s.port ∧ (offerRecord stamp body s).freeCount = s.freeCount := by
  unfold offerRecord
  try dsimp only
  repeat' split
  all_goals simp

@[simp] theorem offerRecordNow_frame (body : EventBody) (s : State) :
    (offerRecordNow body s).pending = s.pending ∧ (offerRecordNow body s).pins = s.pins ∧
    (offerRecordNow body s).time = s.time ∧ (offerRecordNow body s).agreement = s.agreement ∧
    (offerRecordNow body s).line = s.line ∧ (offerRecordNow body s).inputs = s.inputs ∧
    (offerRecordNow body s).pairs = s.pairs ∧ (offerRecordNow body s).checker = s.checker ∧
    (offerRecordNow body s).clocks = s.clocks ∧ (offerRecordNow body s).supply = s.supply ∧
    (offerRecordNow body s).port = s.port ∧ (offerRecordNow body s).freeCount = s.freeCount := by simp [offerRecordNow]

@[simp] theorem reportBroadcast_frame (b : Broadcast) (n : SeqNumber) (s : State) :
    (reportBroadcast b n s).pending = s.pending ∧ (reportBroadcast b n s).pins = s.pins ∧
    (reportBroadcast b n s).time = s.time ∧ (reportBroadcast b n s).agreement = s.agreement ∧
    (reportBroadcast b n s).line = s.line ∧ (reportBroadcast b n s).inputs = s.inputs ∧
    (reportBroadcast b n s).pairs = s.pairs ∧ (reportBroadcast b n s).checker = s.checker ∧
    (reportBroadcast b n s).report = s.report ∧ (reportBroadcast b n s).clocks = s.clocks ∧
    (reportBroadcast b n s).supply = s.supply ∧ (reportBroadcast b n s).port = s.port ∧
    (reportBroadcast b n s).freeCount = s.freeCount := by simp [reportBroadcast]

@[simp] theorem handDeviation_frame (kind : DeviationKind) (slot : Fin 256) (e : CheckEntry) (due : Date) (obs : Option (Matched × TimeState)) (s : State) :
    (handDeviation kind slot e due obs s).pending = s.pending ∧
    (handDeviation kind slot e due obs s).pins = s.pins ∧ (handDeviation kind slot e due obs s).time = s.time ∧
    (handDeviation kind slot e due obs s).agreement = s.agreement ∧
    (handDeviation kind slot e due obs s).line = s.line ∧ (handDeviation kind slot e due obs s).inputs = s.inputs ∧
    (handDeviation kind slot e due obs s).pairs = s.pairs ∧
    (handDeviation kind slot e due obs s).events = s.events ∧
    (handDeviation kind slot e due obs s).checker = s.checker ∧
    (handDeviation kind slot e due obs s).clocks = s.clocks ∧
    (handDeviation kind slot e due obs s).supply = s.supply ∧ (handDeviation kind slot e due obs s).port = s.port ∧
    (handDeviation kind slot e due obs s).freeCount = s.freeCount := by simp [handDeviation]

@[simp] theorem fireOpen_frame (slot : Fin 256) (s : State) :
    (fireOpen slot s).pending = s.pending ∧ (fireOpen slot s).pins = s.pins ∧ (fireOpen slot s).time = s.time ∧
    (fireOpen slot s).agreement = s.agreement ∧ (fireOpen slot s).line = s.line ∧
    (fireOpen slot s).inputs = s.inputs ∧ (fireOpen slot s).pairs = s.pairs ∧ (fireOpen slot s).events = s.events ∧
    (fireOpen slot s).report = s.report ∧ (fireOpen slot s).clocks = s.clocks ∧
    (fireOpen slot s).supply = s.supply ∧ (fireOpen slot s).port = s.port ∧
    (fireOpen slot s).freeCount = s.freeCount := by
  unfold fireOpen
  try dsimp only
  repeat' split
  all_goals simp

@[simp] theorem fireMiss_frame (slot : Fin 256) (s : State) :
    (fireMiss slot s).pending = s.pending ∧ (fireMiss slot s).pins = s.pins ∧ (fireMiss slot s).time = s.time ∧
    (fireMiss slot s).agreement = s.agreement ∧ (fireMiss slot s).line = s.line ∧
    (fireMiss slot s).inputs = s.inputs ∧ (fireMiss slot s).pairs = s.pairs ∧ (fireMiss slot s).events = s.events ∧
    (fireMiss slot s).clocks = s.clocks ∧ (fireMiss slot s).supply = s.supply ∧ (fireMiss slot s).port = s.port ∧
    (fireMiss slot s).freeCount = s.freeCount := by
  unfold fireMiss
  try dsimp only
  repeat' split
  all_goals simp

@[simp] theorem fireHead_frame (d : Deadline) (s : State) :
    (fireHead d s).pending = s.pending ∧ (fireHead d s).pins = s.pins ∧ (fireHead d s).time = s.time ∧
    (fireHead d s).agreement = s.agreement ∧ (fireHead d s).line = s.line ∧ (fireHead d s).inputs = s.inputs ∧
    (fireHead d s).pairs = s.pairs ∧ (fireHead d s).events = s.events ∧ (fireHead d s).clocks = s.clocks ∧
    (fireHead d s).supply = s.supply ∧ (fireHead d s).port = s.port ∧ (fireHead d s).freeCount = s.freeCount := by
  unfold fireHead
  try dsimp only
  repeat' split
  all_goals simp

@[simp] theorem fireItems_frame (n : Nat) (s : State) :
    (fireItems n s).pending = s.pending ∧ (fireItems n s).pins = s.pins ∧ (fireItems n s).time = s.time ∧
    (fireItems n s).agreement = s.agreement ∧ (fireItems n s).line = s.line ∧ (fireItems n s).inputs = s.inputs ∧
    (fireItems n s).pairs = s.pairs ∧ (fireItems n s).events = s.events ∧ (fireItems n s).clocks = s.clocks ∧
    (fireItems n s).supply = s.supply ∧ (fireItems n s).port = s.port ∧ (fireItems n s).freeCount = s.freeCount := by
  induction n generalizing s with
  | zero => simp [fireItems]
  | succ n ih =>
    unfold fireItems
    split
    · simp [ih]
    · simp

@[simp] theorem runDeadlines_frame (s : State) :
    (runDeadlines s).pending = s.pending ∧ (runDeadlines s).pins = s.pins ∧ (runDeadlines s).time = s.time ∧
    (runDeadlines s).agreement = s.agreement ∧ (runDeadlines s).line = s.line ∧ (runDeadlines s).inputs = s.inputs ∧
    (runDeadlines s).pairs = s.pairs ∧ (runDeadlines s).events = s.events ∧ (runDeadlines s).clocks = s.clocks ∧
    (runDeadlines s).supply = s.supply ∧ (runDeadlines s).port = s.port ∧ (runDeadlines s).freeCount = s.freeCount := by
  unfold runDeadlines
  exact fireItems_frame _ s

@[simp] theorem handIfAny_frame (kind : Option DeviationKind) (slot : Fin 256) (e : CheckEntry) (due : Date) (obs : Matched × TimeState) (s : State) :
    (handIfAny kind slot e due obs s).pending = s.pending ∧ (handIfAny kind slot e due obs s).pins = s.pins ∧
    (handIfAny kind slot e due obs s).time = s.time ∧ (handIfAny kind slot e due obs s).agreement = s.agreement ∧
    (handIfAny kind slot e due obs s).line = s.line ∧ (handIfAny kind slot e due obs s).inputs = s.inputs ∧
    (handIfAny kind slot e due obs s).pairs = s.pairs ∧ (handIfAny kind slot e due obs s).events = s.events ∧
    (handIfAny kind slot e due obs s).checker = s.checker ∧ (handIfAny kind slot e due obs s).clocks = s.clocks ∧
    (handIfAny kind slot e due obs s).supply = s.supply ∧ (handIfAny kind slot e due obs s).port = s.port ∧
    (handIfAny kind slot e due obs s).freeCount = s.freeCount := by
  cases kind <;> simp [handIfAny]

@[simp] theorem handVerdict_frame (ob : Observation) (k : Candidate) (s : State) :
    (handVerdict ob k s).pending = s.pending ∧ (handVerdict ob k s).pins = s.pins ∧
    (handVerdict ob k s).time = s.time ∧ (handVerdict ob k s).agreement = s.agreement ∧
    (handVerdict ob k s).line = s.line ∧ (handVerdict ob k s).inputs = s.inputs ∧
    (handVerdict ob k s).pairs = s.pairs ∧ (handVerdict ob k s).events = s.events ∧
    (handVerdict ob k s).checker = s.checker ∧ (handVerdict ob k s).clocks = s.clocks ∧
    (handVerdict ob k s).supply = s.supply ∧ (handVerdict ob k s).port = s.port ∧
    (handVerdict ob k s).freeCount = s.freeCount := by simp [handVerdict]

@[simp] theorem releaseSuccessors_frame (slot : Fin 256) (base : Date) (s : State) :
    (releaseSuccessors slot base s).pending = s.pending ∧ (releaseSuccessors slot base s).pins = s.pins ∧
    (releaseSuccessors slot base s).time = s.time ∧ (releaseSuccessors slot base s).agreement = s.agreement ∧
    (releaseSuccessors slot base s).line = s.line ∧ (releaseSuccessors slot base s).inputs = s.inputs ∧
    (releaseSuccessors slot base s).pairs = s.pairs ∧ (releaseSuccessors slot base s).events = s.events ∧
    (releaseSuccessors slot base s).clocks = s.clocks ∧ (releaseSuccessors slot base s).supply = s.supply ∧
    (releaseSuccessors slot base s).port = s.port ∧ (releaseSuccessors slot base s).freeCount = s.freeCount := by simp [releaseSuccessors]

@[simp] theorem satisfyEntry_frame (ob : Observation) (k : Candidate) (s : State) :
    (satisfyEntry ob k s).pending = s.pending ∧ (satisfyEntry ob k s).pins = s.pins ∧
    (satisfyEntry ob k s).time = s.time ∧ (satisfyEntry ob k s).agreement = s.agreement ∧
    (satisfyEntry ob k s).line = s.line ∧ (satisfyEntry ob k s).inputs = s.inputs ∧
    (satisfyEntry ob k s).pairs = s.pairs ∧ (satisfyEntry ob k s).events = s.events ∧
    (satisfyEntry ob k s).clocks = s.clocks ∧ (satisfyEntry ob k s).supply = s.supply ∧
    (satisfyEntry ob k s).port = s.port ∧ (satisfyEntry ob k s).freeCount = s.freeCount := by simp [satisfyEntry]

@[simp] theorem clearEntry_frame (ob : Observation) (k : Candidate) (s : State) :
    (clearEntry ob k s).pending = s.pending ∧ (clearEntry ob k s).pins = s.pins ∧
    (clearEntry ob k s).time = s.time ∧ (clearEntry ob k s).agreement = s.agreement ∧
    (clearEntry ob k s).line = s.line ∧ (clearEntry ob k s).inputs = s.inputs ∧
    (clearEntry ob k s).pairs = s.pairs ∧ (clearEntry ob k s).events = s.events ∧
    (clearEntry ob k s).clocks = s.clocks ∧ (clearEntry ob k s).supply = s.supply ∧
    (clearEntry ob k s).port = s.port ∧ (clearEntry ob k s).freeCount = s.freeCount := by simp [clearEntry]

@[simp] theorem takeObservation_frame (ob : Observation) (s : State) :
    (takeObservation ob s).pending = s.pending ∧ (takeObservation ob s).pins = s.pins ∧
    (takeObservation ob s).time = s.time ∧ (takeObservation ob s).agreement = s.agreement ∧
    (takeObservation ob s).line = s.line ∧ (takeObservation ob s).inputs = s.inputs ∧
    (takeObservation ob s).pairs = s.pairs ∧ (takeObservation ob s).events = s.events ∧
    (takeObservation ob s).clocks = s.clocks ∧ (takeObservation ob s).supply = s.supply ∧
    (takeObservation ob s).port = s.port ∧ (takeObservation ob s).freeCount = s.freeCount := by
  unfold takeObservation
  try dsimp only
  repeat' split
  all_goals simp

@[simp] theorem refreshSuspension_frame (s : State) :
    (refreshSuspension s).pending = s.pending ∧ (refreshSuspension s).pins = s.pins ∧
    (refreshSuspension s).time = s.time ∧ (refreshSuspension s).agreement = s.agreement ∧
    (refreshSuspension s).line = s.line ∧ (refreshSuspension s).inputs = s.inputs ∧
    (refreshSuspension s).pairs = s.pairs ∧ (refreshSuspension s).events = s.events ∧
    (refreshSuspension s).checker = s.checker ∧ (refreshSuspension s).report = s.report ∧
    (refreshSuspension s).supply = s.supply ∧ (refreshSuspension s).port = s.port ∧
    (refreshSuspension s).freeCount = s.freeCount := by simp [refreshSuspension]

@[simp] theorem decideLine_frame (line : Fin 4) (s : State) :
    (decideLine line s).pending = s.pending ∧ (decideLine line s).pins = s.pins ∧
    (decideLine line s).time = s.time ∧ (decideLine line s).agreement = s.agreement ∧
    (decideLine line s).line = s.line ∧ (decideLine line s).inputs = s.inputs ∧
    (decideLine line s).pairs = s.pairs ∧ (decideLine line s).events = s.events ∧
    (decideLine line s).checker = s.checker ∧ (decideLine line s).report = s.report ∧
    (decideLine line s).supply = s.supply ∧ (decideLine line s).port = s.port ∧
    (decideLine line s).freeCount = s.freeCount := by simp [decideLine]

@[simp] theorem decideLines_frame (s : State) :
    (decideLines s).pending = s.pending ∧ (decideLines s).pins = s.pins ∧ (decideLines s).time = s.time ∧
    (decideLines s).agreement = s.agreement ∧ (decideLines s).line = s.line ∧ (decideLines s).inputs = s.inputs ∧
    (decideLines s).pairs = s.pairs ∧ (decideLines s).events = s.events ∧ (decideLines s).checker = s.checker ∧
    (decideLines s).report = s.report ∧ (decideLines s).supply = s.supply ∧ (decideLines s).port = s.port ∧
    (decideLines s).freeCount = s.freeCount := by simp [decideLines]

@[simp] theorem endPulse_frame (line : Fin 4) (c : ClockConfig) (p : Pulse) (s : State) :
    (endPulse line c p s).pending = s.pending ∧ (endPulse line c p s).pins = s.pins ∧
    (endPulse line c p s).time = s.time ∧ (endPulse line c p s).agreement = s.agreement ∧
    (endPulse line c p s).line = s.line ∧ (endPulse line c p s).inputs = s.inputs ∧
    (endPulse line c p s).pairs = s.pairs ∧ (endPulse line c p s).events = s.events ∧
    (endPulse line c p s).checker = s.checker ∧ (endPulse line c p s).supply = s.supply ∧
    (endPulse line c p s).port = s.port ∧ (endPulse line c p s).freeCount = s.freeCount := by
  unfold endPulse
  try dsimp only
  repeat' split
  all_goals simp

@[simp] theorem noteProvingLevel_frame (terminal : Fin 40) (old new : Bool) (s : State) :
    (noteProvingLevel terminal old new s).pending = s.pending ∧
    (noteProvingLevel terminal old new s).pins = s.pins ∧ (noteProvingLevel terminal old new s).time = s.time ∧
    (noteProvingLevel terminal old new s).agreement = s.agreement ∧
    (noteProvingLevel terminal old new s).line = s.line ∧ (noteProvingLevel terminal old new s).inputs = s.inputs ∧
    (noteProvingLevel terminal old new s).pairs = s.pairs ∧
    (noteProvingLevel terminal old new s).events = s.events ∧
    (noteProvingLevel terminal old new s).checker = s.checker ∧
    (noteProvingLevel terminal old new s).report = s.report ∧
    (noteProvingLevel terminal old new s).supply = s.supply ∧ (noteProvingLevel terminal old new s).port = s.port ∧
    (noteProvingLevel terminal old new s).freeCount = s.freeCount := by simp [noteProvingLevel]

@[simp] theorem followTime_frame (s : State) :
    (followTime s).pending = s.pending ∧ (followTime s).pins = s.pins ∧ (followTime s).time = s.time ∧
    (followTime s).agreement = s.agreement ∧ (followTime s).line = s.line ∧ (followTime s).inputs = s.inputs ∧
    (followTime s).pairs = s.pairs ∧ (followTime s).events = s.events ∧ (followTime s).supply = s.supply ∧
    (followTime s).port = s.port ∧ (followTime s).freeCount = s.freeCount := by simp [followTime]

@[simp] theorem announceStep_frame (old : Date) (ts : TimeState) (s : State) :
    (announceStep old ts s).pending = s.pending ∧ (announceStep old ts s).pins = s.pins ∧
    (announceStep old ts s).time = s.time ∧ (announceStep old ts s).agreement = s.agreement ∧
    (announceStep old ts s).line = s.line ∧ (announceStep old ts s).inputs = s.inputs ∧
    (announceStep old ts s).pairs = s.pairs ∧ (announceStep old ts s).checker = s.checker ∧
    (announceStep old ts s).clocks = s.clocks ∧ (announceStep old ts s).supply = s.supply ∧
    (announceStep old ts s).port = s.port ∧ (announceStep old ts s).freeCount = s.freeCount := by
  unfold announceStep
  try dsimp only
  repeat' split
  all_goals simp

@[simp] theorem discipline_frame (d : Int) (s : State) :
    (discipline d s).2.pending = s.pending ∧ (discipline d s).2.pins = s.pins ∧
    (discipline d s).2.agreement = s.agreement ∧ (discipline d s).2.line = s.line ∧
    (discipline d s).2.inputs = s.inputs ∧ (discipline d s).2.pairs = s.pairs ∧
    (discipline d s).2.checker = s.checker ∧ (discipline d s).2.clocks = s.clocks ∧
    (discipline d s).2.supply = s.supply ∧ (discipline d s).2.port = s.port ∧
    (discipline d s).2.freeCount = s.freeCount := by
  unfold discipline
  try dsimp only
  repeat' split
  all_goals simp

@[simp] theorem giveOffset_frame (kind : SourceKind) (grade : Nat) (d : Int) (s : State) :
    (giveOffset kind grade d s).pending = s.pending ∧ (giveOffset kind grade d s).pins = s.pins ∧
    (giveOffset kind grade d s).line = s.line ∧ (giveOffset kind grade d s).inputs = s.inputs ∧
    (giveOffset kind grade d s).pairs = s.pairs ∧ (giveOffset kind grade d s).supply = s.supply ∧
    (giveOffset kind grade d s).port = s.port ∧ (giveOffset kind grade d s).freeCount = s.freeCount := by simp [giveOffset]

@[simp] theorem enterHoldover_frame (grade : Nat) (s : State) :
    (enterHoldover grade s).pending = s.pending ∧ (enterHoldover grade s).pins = s.pins ∧
    (enterHoldover grade s).time = s.time ∧ (enterHoldover grade s).line = s.line ∧
    (enterHoldover grade s).inputs = s.inputs ∧ (enterHoldover grade s).pairs = s.pairs ∧
    (enterHoldover grade s).events = s.events ∧ (enterHoldover grade s).checker = s.checker ∧
    (enterHoldover grade s).clocks = s.clocks ∧ (enterHoldover grade s).supply = s.supply ∧
    (enterHoldover grade s).port = s.port ∧ (enterHoldover grade s).freeCount = s.freeCount := by simp [enterHoldover]

@[simp] theorem closeSecond_frame (s : State) :
    (closeSecond s).pending = s.pending ∧ (closeSecond s).pins = s.pins ∧ (closeSecond s).time = s.time ∧
    (closeSecond s).line = s.line ∧ (closeSecond s).inputs = s.inputs ∧ (closeSecond s).pairs = s.pairs ∧
    (closeSecond s).events = s.events ∧ (closeSecond s).checker = s.checker ∧ (closeSecond s).clocks = s.clocks ∧
    (closeSecond s).supply = s.supply ∧ (closeSecond s).port = s.port ∧ (closeSecond s).freeCount = s.freeCount := by
  unfold closeSecond
  try dsimp only
  repeat' split
  all_goals simp

@[simp] theorem reportDropped_frame (items : List TxItem) (s : State) :
    (reportDropped items s).pending = s.pending ∧ (reportDropped items s).pins = s.pins ∧
    (reportDropped items s).time = s.time ∧ (reportDropped items s).agreement = s.agreement ∧
    (reportDropped items s).line = s.line ∧ (reportDropped items s).inputs = s.inputs ∧
    (reportDropped items s).pairs = s.pairs ∧ (reportDropped items s).checker = s.checker ∧
    (reportDropped items s).report = s.report ∧ (reportDropped items s).clocks = s.clocks ∧
    (reportDropped items s).supply = s.supply ∧ (reportDropped items s).port = s.port ∧
    (reportDropped items s).freeCount = s.freeCount := by
  unfold reportDropped
  induction items generalizing s with
  | nil => simp
  | cons it rest ih =>
    rw [List.foldl_cons]
    cases hn : it.eventSeq with
    | some n => simpa using ih (reportBroadcast .droppedWithdrawn n s)
    | none => exact ih s

@[simp] theorem enterWithdrawn_frame (s : State) :
    (enterWithdrawn s).pending = s.pending ∧ (enterWithdrawn s).pins = s.pins ∧ (enterWithdrawn s).time = s.time ∧
    (enterWithdrawn s).agreement = s.agreement ∧ (enterWithdrawn s).inputs = s.inputs ∧
    (enterWithdrawn s).pairs = s.pairs ∧ (enterWithdrawn s).checker = s.checker ∧
    (enterWithdrawn s).clocks = s.clocks ∧ (enterWithdrawn s).supply = s.supply ∧ (enterWithdrawn s).port = s.port ∧
    (enterWithdrawn s).freeCount = s.freeCount := by simp [enterWithdrawn]

@[simp] theorem takeScore_frame (score : Nat) (s : State) :
    (takeScore score s).pending = s.pending ∧ (takeScore score s).pins = s.pins ∧
    (takeScore score s).time = s.time ∧ (takeScore score s).agreement = s.agreement ∧
    (takeScore score s).inputs = s.inputs ∧ (takeScore score s).pairs = s.pairs ∧
    (takeScore score s).checker = s.checker ∧ (takeScore score s).clocks = s.clocks ∧
    (takeScore score s).supply = s.supply ∧ (takeScore score s).port = s.port ∧
    (takeScore score s).freeCount = s.freeCount := by
  unfold takeScore
  try dsimp only
  repeat' split
  all_goals simp

@[simp] theorem duplicateStation_frame (s : State) :
    (duplicateStation s).pending = s.pending ∧ (duplicateStation s).pins = s.pins ∧
    (duplicateStation s).time = s.time ∧ (duplicateStation s).agreement = s.agreement ∧
    (duplicateStation s).inputs = s.inputs ∧ (duplicateStation s).pairs = s.pairs ∧
    (duplicateStation s).checker = s.checker ∧ (duplicateStation s).clocks = s.clocks ∧
    (duplicateStation s).supply = s.supply ∧ (duplicateStation s).port = s.port ∧
    (duplicateStation s).freeCount = s.freeCount := by
  unfold duplicateStation
  try dsimp only
  repeat' split
  all_goals simp

@[simp] theorem runTowardReturn_frame (s : State) :
    (runTowardReturn s).pending = s.pending ∧ (runTowardReturn s).pins = s.pins ∧
    (runTowardReturn s).time = s.time ∧ (runTowardReturn s).agreement = s.agreement ∧
    (runTowardReturn s).inputs = s.inputs ∧ (runTowardReturn s).pairs = s.pairs ∧
    (runTowardReturn s).events = s.events ∧ (runTowardReturn s).checker = s.checker ∧
    (runTowardReturn s).report = s.report ∧ (runTowardReturn s).clocks = s.clocks ∧
    (runTowardReturn s).supply = s.supply ∧ (runTowardReturn s).port = s.port ∧
    (runTowardReturn s).freeCount = s.freeCount := by
  unfold runTowardReturn
  try dsimp only
  repeat' split
  all_goals simp

@[simp] theorem scoreOwnFrame_frame (how : FrameEnd) (s : State) :
    (scoreOwnFrame how s).pending = s.pending ∧ (scoreOwnFrame how s).pins = s.pins ∧
    (scoreOwnFrame how s).time = s.time ∧ (scoreOwnFrame how s).agreement = s.agreement ∧
    (scoreOwnFrame how s).inputs = s.inputs ∧ (scoreOwnFrame how s).pairs = s.pairs ∧
    (scoreOwnFrame how s).checker = s.checker ∧ (scoreOwnFrame how s).clocks = s.clocks ∧
    (scoreOwnFrame how s).supply = s.supply ∧ (scoreOwnFrame how s).port = s.port ∧
    (scoreOwnFrame how s).freeCount = s.freeCount := by
  cases how <;> simp only [scoreOwnFrame] <;> (repeat' split) <;> simp

@[simp] theorem scoreGoodFrame_frame (own remainder : Bool) (s : State) :
    (scoreGoodFrame own remainder s).pending = s.pending ∧ (scoreGoodFrame own remainder s).pins = s.pins ∧
    (scoreGoodFrame own remainder s).time = s.time ∧ (scoreGoodFrame own remainder s).agreement = s.agreement ∧
    (scoreGoodFrame own remainder s).inputs = s.inputs ∧ (scoreGoodFrame own remainder s).pairs = s.pairs ∧
    (scoreGoodFrame own remainder s).checker = s.checker ∧ (scoreGoodFrame own remainder s).clocks = s.clocks ∧
    (scoreGoodFrame own remainder s).supply = s.supply ∧ (scoreGoodFrame own remainder s).port = s.port ∧
    (scoreGoodFrame own remainder s).freeCount = s.freeCount := by
  unfold scoreGoodFrame
  try dsimp only
  repeat' split
  all_goals simp

@[simp] theorem scoreBadFrame_frame (remainder : Bool) (s : State) :
    (scoreBadFrame remainder s).pending = s.pending ∧ (scoreBadFrame remainder s).pins = s.pins ∧
    (scoreBadFrame remainder s).time = s.time ∧ (scoreBadFrame remainder s).agreement = s.agreement ∧
    (scoreBadFrame remainder s).inputs = s.inputs ∧ (scoreBadFrame remainder s).pairs = s.pairs ∧
    (scoreBadFrame remainder s).checker = s.checker ∧ (scoreBadFrame remainder s).clocks = s.clocks ∧
    (scoreBadFrame remainder s).supply = s.supply ∧ (scoreBadFrame remainder s).port = s.port ∧
    (scoreBadFrame remainder s).freeCount = s.freeCount := by
  unfold scoreBadFrame
  try dsimp only
  repeat' split
  all_goals simp

@[simp] theorem offerNotice_frame (urgent : Bool) (priority : Nat) (body : NoticeBody) (n : SeqNumber) (s : State) :
    (offerNotice urgent priority body n s).pending = s.pending ∧
    (offerNotice urgent priority body n s).pins = s.pins ∧ (offerNotice urgent priority body n s).time = s.time ∧
    (offerNotice urgent priority body n s).agreement = s.agreement ∧
    (offerNotice urgent priority body n s).inputs = s.inputs ∧
    (offerNotice urgent priority body n s).pairs = s.pairs ∧
    (offerNotice urgent priority body n s).checker = s.checker ∧
    (offerNotice urgent priority body n s).report = s.report ∧
    (offerNotice urgent priority body n s).clocks = s.clocks ∧
    (offerNotice urgent priority body n s).supply = s.supply ∧
    (offerNotice urgent priority body n s).port = s.port ∧
    (offerNotice urgent priority body n s).freeCount = s.freeCount := by
  unfold offerNotice
  dsimp only
  split <;> simp

@[simp] theorem settleItem_frame (how : FrameEnd) (order : Nat) (s : State) :
    (settleItem how order s).pending = s.pending ∧ (settleItem how order s).pins = s.pins ∧
    (settleItem how order s).time = s.time ∧ (settleItem how order s).agreement = s.agreement ∧
    (settleItem how order s).inputs = s.inputs ∧ (settleItem how order s).pairs = s.pairs ∧
    (settleItem how order s).checker = s.checker ∧ (settleItem how order s).report = s.report ∧
    (settleItem how order s).clocks = s.clocks ∧ (settleItem how order s).supply = s.supply ∧
    (settleItem how order s).port = s.port ∧ (settleItem how order s).freeCount = s.freeCount := by
  unfold settleItem
  try dsimp only
  repeat' split
  all_goals simp

@[simp] theorem beginItem_frame (it : TxItem) (s : State) :
    (beginItem it s).pending = s.pending ∧ (beginItem it s).pins = s.pins ∧ (beginItem it s).time = s.time ∧
    (beginItem it s).agreement = s.agreement ∧ (beginItem it s).inputs = s.inputs ∧
    (beginItem it s).pairs = s.pairs ∧ (beginItem it s).events = s.events ∧ (beginItem it s).checker = s.checker ∧
    (beginItem it s).report = s.report ∧ (beginItem it s).clocks = s.clocks ∧ (beginItem it s).supply = s.supply ∧
    (beginItem it s).port = s.port ∧ (beginItem it s).freeCount = s.freeCount := by simp [beginItem]

@[simp] theorem sendTime_frame (c : Stamp) (s : State) :
    (sendTime c s).pending = s.pending ∧ (sendTime c s).pins = s.pins ∧ (sendTime c s).time = s.time ∧
    (sendTime c s).agreement = s.agreement ∧ (sendTime c s).inputs = s.inputs ∧ (sendTime c s).pairs = s.pairs ∧
    (sendTime c s).events = s.events ∧ (sendTime c s).checker = s.checker ∧ (sendTime c s).report = s.report ∧
    (sendTime c s).clocks = s.clocks ∧ (sendTime c s).supply = s.supply ∧ (sendTime c s).port = s.port ∧
    (sendTime c s).freeCount = s.freeCount := by simp [sendTime]

@[simp] theorem contest_frame (s : State) :
    (contest s).pending = s.pending ∧ (contest s).pins = s.pins ∧ (contest s).time = s.time ∧
    (contest s).agreement = s.agreement ∧ (contest s).inputs = s.inputs ∧ (contest s).pairs = s.pairs ∧
    (contest s).events = s.events ∧ (contest s).checker = s.checker ∧ (contest s).report = s.report ∧
    (contest s).clocks = s.clocks ∧ (contest s).supply = s.supply ∧ (contest s).port = s.port ∧
    (contest s).freeCount = s.freeCount := by
  unfold contest
  try dsimp only
  repeat' split
  all_goals simp

@[simp] theorem endBadFrame_frame (why : BadFrame) (s : State) :
    (endBadFrame why s).pending = s.pending ∧ (endBadFrame why s).pins = s.pins ∧
    (endBadFrame why s).time = s.time ∧ (endBadFrame why s).agreement = s.agreement ∧
    (endBadFrame why s).inputs = s.inputs ∧ (endBadFrame why s).pairs = s.pairs ∧
    (endBadFrame why s).checker = s.checker ∧ (endBadFrame why s).clocks = s.clocks ∧
    (endBadFrame why s).supply = s.supply ∧ (endBadFrame why s).port = s.port ∧
    (endBadFrame why s).freeCount = s.freeCount := by
  unfold endBadFrame
  try dsimp only
  repeat' split
  all_goals simp

@[simp] theorem endGoodFrame_frame (origin : BitVec 6) (s : State) :
    (endGoodFrame origin s).pending = s.pending ∧ (endGoodFrame origin s).pins = s.pins ∧
    (endGoodFrame origin s).time = s.time ∧ (endGoodFrame origin s).agreement = s.agreement ∧
    (endGoodFrame origin s).inputs = s.inputs ∧ (endGoodFrame origin s).pairs = s.pairs ∧
    (endGoodFrame origin s).checker = s.checker ∧ (endGoodFrame origin s).clocks = s.clocks ∧
    (endGoodFrame origin s).supply = s.supply ∧ (endGoodFrame origin s).port = s.port ∧
    (endGoodFrame origin s).freeCount = s.freeCount := by
  unfold endGoodFrame
  try dsimp only
  repeat' split
  all_goals simp

@[simp] theorem setHeard_frame (k : Fin 62) (e : HeardEntry) (s : State) :
    (setHeard k e s).pending = s.pending ∧ (setHeard k e s).pins = s.pins ∧ (setHeard k e s).time = s.time ∧
    (setHeard k e s).agreement = s.agreement ∧ (setHeard k e s).inputs = s.inputs ∧
    (setHeard k e s).pairs = s.pairs ∧ (setHeard k e s).events = s.events ∧ (setHeard k e s).checker = s.checker ∧
    (setHeard k e s).report = s.report ∧ (setHeard k e s).clocks = s.clocks ∧ (setHeard k e s).supply = s.supply ∧
    (setHeard k e s).port = s.port ∧ (setHeard k e s).freeCount = s.freeCount := by simp [setHeard]

@[simp] theorem steerHeard_frame (k : Fin 62) (s : State) :
    (steerHeard k s).pending = s.pending ∧ (steerHeard k s).pins = s.pins ∧ (steerHeard k s).time = s.time ∧
    (steerHeard k s).agreement = s.agreement ∧ (steerHeard k s).inputs = s.inputs ∧
    (steerHeard k s).pairs = s.pairs ∧ (steerHeard k s).events = s.events ∧ (steerHeard k s).checker = s.checker ∧
    (steerHeard k s).report = s.report ∧ (steerHeard k s).clocks = s.clocks ∧ (steerHeard k s).supply = s.supply ∧
    (steerHeard k s).port = s.port ∧ (steerHeard k s).freeCount = s.freeCount := by simp [steerHeard]

@[simp] theorem acceptNotice_frame (f : NoticeFrame) (s : State) :
    (acceptNotice f s).pending = s.pending ∧ (acceptNotice f s).pins = s.pins ∧ (acceptNotice f s).time = s.time ∧
    (acceptNotice f s).agreement = s.agreement ∧ (acceptNotice f s).inputs = s.inputs ∧
    (acceptNotice f s).pairs = s.pairs ∧ (acceptNotice f s).events = s.events ∧
    (acceptNotice f s).clocks = s.clocks ∧ (acceptNotice f s).supply = s.supply ∧ (acceptNotice f s).port = s.port ∧
    (acceptNotice f s).freeCount = s.freeCount := by
  unfold acceptNotice
  try dsimp only
  repeat' split
  all_goals simp

@[simp] theorem steerNotice_frame (k : Fin 62) (f : NoticeFrame) (s : State) :
    (steerNotice k f s).pending = s.pending ∧ (steerNotice k f s).pins = s.pins ∧
    (steerNotice k f s).time = s.time ∧ (steerNotice k f s).agreement = s.agreement ∧
    (steerNotice k f s).inputs = s.inputs ∧ (steerNotice k f s).pairs = s.pairs ∧
    (steerNotice k f s).events = s.events ∧ (steerNotice k f s).clocks = s.clocks ∧
    (steerNotice k f s).supply = s.supply ∧ (steerNotice k f s).port = s.port ∧
    (steerNotice k f s).freeCount = s.freeCount := by
  unfold steerNotice
  try dsimp only
  repeat' split
  all_goals simp

@[simp] theorem steerPresence_frame (k : Fin 62) (f : PresenceFrame) (s : State) :
    (steerPresence k f s).pending = s.pending ∧ (steerPresence k f s).pins = s.pins ∧
    (steerPresence k f s).time = s.time ∧ (steerPresence k f s).agreement = s.agreement ∧
    (steerPresence k f s).inputs = s.inputs ∧ (steerPresence k f s).pairs = s.pairs ∧
    (steerPresence k f s).events = s.events ∧ (steerPresence k f s).checker = s.checker ∧
    (steerPresence k f s).report = s.report ∧ (steerPresence k f s).clocks = s.clocks ∧
    (steerPresence k f s).supply = s.supply ∧ (steerPresence k f s).port = s.port ∧
    (steerPresence k f s).freeCount = s.freeCount := by simp [steerPresence]

@[simp] theorem setPresenceDue_frame (second : Nat) (s : State) :
    (setPresenceDue second s).pending = s.pending ∧ (setPresenceDue second s).pins = s.pins ∧
    (setPresenceDue second s).time = s.time ∧ (setPresenceDue second s).agreement = s.agreement ∧
    (setPresenceDue second s).inputs = s.inputs ∧ (setPresenceDue second s).pairs = s.pairs ∧
    (setPresenceDue second s).events = s.events ∧ (setPresenceDue second s).checker = s.checker ∧
    (setPresenceDue second s).report = s.report ∧ (setPresenceDue second s).clocks = s.clocks ∧
    (setPresenceDue second s).supply = s.supply ∧ (setPresenceDue second s).port = s.port ∧
    (setPresenceDue second s).freeCount = s.freeCount := by
  unfold setPresenceDue
  try dsimp only
  repeat' split
  all_goals simp

/-- What the contest at an own mark leaves of the line controller (R28). -/
@[simp] theorem contest_line (s : State) :
    (contest s).line.remainder = s.line.remainder ∧ (contest s).line.objecting = s.line.objecting ∧
    (contest s).line.score = s.line.score ∧ (contest s).line.standing = s.line.standing ∧
    (contest s).line.collisions = s.line.collisions ∧ (contest s).line.goodRun = s.line.goodRun ∧
    (contest s).line.txQueue = s.line.txQueue ∧ (contest s).line.nextOrder = s.line.nextOrder ∧
    (contest s).line.ownSeq = s.line.ownSeq ∧ (contest s).line.heard = s.line.heard ∧
    (contest s).line.hits = s.line.hits ∧ (contest s).line.presenceDue = s.line.presenceDue := by
  unfold contest sendTime
  repeat' split
  all_goals simp

@[simp] theorem setPresenceDue_line (second : Nat) (s : State) :
    (setPresenceDue second s).line.remainder = s.line.remainder ∧
    (setPresenceDue second s).line.objecting = s.line.objecting ∧
    (setPresenceDue second s).line.score = s.line.score ∧ (setPresenceDue second s).line.standing = s.line.standing ∧
    (setPresenceDue second s).line.collisions = s.line.collisions ∧
    (setPresenceDue second s).line.goodRun = s.line.goodRun ∧
    (setPresenceDue second s).line.txQueue = s.line.txQueue ∧
    (setPresenceDue second s).line.nextOrder = s.line.nextOrder ∧
    (setPresenceDue second s).line.ownSeq = s.line.ownSeq ∧ (setPresenceDue second s).line.heard = s.line.heard ∧
    (setPresenceDue second s).line.hits = s.line.hits ∧ (setPresenceDue second s).line.condition = s.line.condition ∧
    (setPresenceDue second s).line.leadIn = s.line.leadIn ∧
    (setPresenceDue second s).line.ownFrame = s.line.ownFrame := by
  unfold setPresenceDue
  try dsimp only
  repeat' split
  all_goals simp

@[simp] theorem markInRun_frame (second : Nat) (s : State) :
    (markInRun second s).pending = s.pending ∧ (markInRun second s).pins = s.pins ∧
    (markInRun second s).time = s.time ∧ (markInRun second s).inputs = s.inputs ∧
    (markInRun second s).pairs = s.pairs ∧ (markInRun second s).events = s.events ∧
    (markInRun second s).checker = s.checker ∧ (markInRun second s).clocks = s.clocks ∧
    (markInRun second s).supply = s.supply ∧ (markInRun second s).port = s.port ∧
    (markInRun second s).freeCount = s.freeCount := by
  unfold markInRun
  dsimp only
  split <;> simp

/-- What an own mark leaves of the line controller (R51, R114). -/
@[simp] theorem markInRun_line (second : Nat) (s : State) :
    (markInRun second s).line.remainder = s.line.remainder ∧ (markInRun second s).line.objecting = s.line.objecting ∧
    (markInRun second s).line.score = s.line.score ∧ (markInRun second s).line.standing = s.line.standing ∧
    (markInRun second s).line.collisions = s.line.collisions ∧ (markInRun second s).line.goodRun = s.line.goodRun ∧
    (markInRun second s).line.txQueue = s.line.txQueue ∧ (markInRun second s).line.nextOrder = s.line.nextOrder ∧
    (markInRun second s).line.ownSeq = s.line.ownSeq ∧ (markInRun second s).line.heard = s.line.heard ∧
    (markInRun second s).line.hits = s.line.hits := by
  unfold markInRun
  dsimp only
  split <;> simp

@[simp] theorem clearMark_frame (s : State) :
    (clearMark s).pending = s.pending ∧ (clearMark s).pins = s.pins ∧ (clearMark s).agreement = s.agreement ∧
    (clearMark s).line = s.line ∧ (clearMark s).inputs = s.inputs ∧ (clearMark s).pairs = s.pairs ∧
    (clearMark s).events = s.events ∧ (clearMark s).checker = s.checker ∧ (clearMark s).report = s.report ∧
    (clearMark s).clocks = s.clocks ∧ (clearMark s).supply = s.supply ∧ (clearMark s).port = s.port ∧
    (clearMark s).freeCount = s.freeCount := by simp [clearMark]

@[simp] theorem takeMark_frame (s : State) :
    (takeMark s).pending = s.pending ∧ (takeMark s).pins = s.pins ∧ (takeMark s).inputs = s.inputs ∧
    (takeMark s).pairs = s.pairs ∧ (takeMark s).events = s.events ∧ (takeMark s).checker = s.checker ∧
    (takeMark s).clocks = s.clocks ∧ (takeMark s).supply = s.supply ∧ (takeMark s).port = s.port ∧
    (takeMark s).freeCount = s.freeCount := by
  unfold takeMark
  try dsimp only
  repeat' split
  all_goals simp

@[simp] theorem takeMark_line (s : State) :
    (takeMark s).line.remainder = s.line.remainder ∧ (takeMark s).line.objecting = s.line.objecting ∧
    (takeMark s).line.score = s.line.score ∧ (takeMark s).line.standing = s.line.standing ∧
    (takeMark s).line.collisions = s.line.collisions ∧ (takeMark s).line.goodRun = s.line.goodRun ∧
    (takeMark s).line.txQueue = s.line.txQueue ∧ (takeMark s).line.nextOrder = s.line.nextOrder ∧
    (takeMark s).line.ownSeq = s.line.ownSeq ∧ (takeMark s).line.heard = s.line.heard ∧
    (takeMark s).line.hits = s.line.hits := by
  unfold takeMark
  try dsimp only
  repeat' split
  all_goals simp

/-- The mark is taken from the time base, and nothing else of it changes (R6). -/
@[simp] theorem takeMark_time (s : State) : (takeMark s).time = { s.time with markDue := none } := by
  unfold takeMark
  split
  · split <;> simp [clearMark]
  · rename_i h
    rw [← h]

@[simp] theorem markBeforeStep_frame (d : Int) (s : State) :
    (markBeforeStep d s).pending = s.pending ∧ (markBeforeStep d s).pins = s.pins ∧
    (markBeforeStep d s).inputs = s.inputs ∧ (markBeforeStep d s).pairs = s.pairs ∧
    (markBeforeStep d s).events = s.events ∧ (markBeforeStep d s).checker = s.checker ∧
    (markBeforeStep d s).clocks = s.clocks ∧ (markBeforeStep d s).supply = s.supply ∧
    (markBeforeStep d s).port = s.port ∧ (markBeforeStep d s).freeCount = s.freeCount := by
  unfold markBeforeStep
  try dsimp only
  repeat' split
  all_goals simp

@[simp] theorem markBeforeStep_line (d : Int) (s : State) :
    (markBeforeStep d s).line.remainder = s.line.remainder ∧ (markBeforeStep d s).line.objecting = s.line.objecting ∧
    (markBeforeStep d s).line.score = s.line.score ∧ (markBeforeStep d s).line.standing = s.line.standing ∧
    (markBeforeStep d s).line.collisions = s.line.collisions ∧ (markBeforeStep d s).line.goodRun = s.line.goodRun ∧
    (markBeforeStep d s).line.txQueue = s.line.txQueue ∧ (markBeforeStep d s).line.nextOrder = s.line.nextOrder ∧
    (markBeforeStep d s).line.ownSeq = s.line.ownSeq ∧ (markBeforeStep d s).line.heard = s.line.heard ∧
    (markBeforeStep d s).line.hits = s.line.hits := by
  unfold markBeforeStep
  try dsimp only
  repeat' split
  all_goals simp

@[simp] theorem hearTimeFrame_frame (f : TimeFrame) (capture : Option Stamp) (s : State) :
    (hearTimeFrame f capture s).pending = s.pending ∧ (hearTimeFrame f capture s).pins = s.pins ∧
    (hearTimeFrame f capture s).inputs = s.inputs ∧ (hearTimeFrame f capture s).pairs = s.pairs ∧
    (hearTimeFrame f capture s).supply = s.supply ∧ (hearTimeFrame f capture s).port = s.port ∧
    (hearTimeFrame f capture s).freeCount = s.freeCount := by
  unfold hearTimeFrame
  try dsimp only
  repeat' split
  all_goals simp

/-- What a heard TIME frame leaves of the line controller: a mark that waits for a step changes the rest (R20). -/
@[simp] theorem hearTimeFrame_line (f : TimeFrame) (capture : Option Stamp) (s : State) :
    (hearTimeFrame f capture s).line.remainder = s.line.remainder ∧
    (hearTimeFrame f capture s).line.objecting = s.line.objecting ∧
    (hearTimeFrame f capture s).line.score = s.line.score ∧
    (hearTimeFrame f capture s).line.standing = s.line.standing ∧
    (hearTimeFrame f capture s).line.collisions = s.line.collisions ∧
    (hearTimeFrame f capture s).line.goodRun = s.line.goodRun ∧
    (hearTimeFrame f capture s).line.txQueue = s.line.txQueue ∧
    (hearTimeFrame f capture s).line.nextOrder = s.line.nextOrder ∧
    (hearTimeFrame f capture s).line.ownSeq = s.line.ownSeq ∧ (hearTimeFrame f capture s).line.heard = s.line.heard ∧
    (hearTimeFrame f capture s).line.hits = s.line.hits := by
  unfold hearTimeFrame
  try dsimp only
  repeat' split
  all_goals simp

@[simp] theorem frameEnds_frame {isTime checkAgrees : Bool} {good : State → State} {s : State}
    (h : (good s).pending = s.pending ∧ (good s).pins = s.pins ∧ (good s).inputs = s.inputs ∧
      (good s).pairs = s.pairs ∧ (good s).supply = s.supply ∧ (good s).port = s.port ∧
      (good s).freeCount = s.freeCount) :
    (frameEnds isTime checkAgrees good s).pending = s.pending ∧ (frameEnds isTime checkAgrees good s).pins = s.pins ∧
    (frameEnds isTime checkAgrees good s).inputs = s.inputs ∧
    (frameEnds isTime checkAgrees good s).pairs = s.pairs ∧
    (frameEnds isTime checkAgrees good s).supply = s.supply ∧
    (frameEnds isTime checkAgrees good s).port = s.port ∧
    (frameEnds isTime checkAgrees good s).freeCount = s.freeCount := by
  unfold frameEnds
  repeat' split
  all_goals simp [h]

@[simp] theorem fallPresence_frame (s : State) :
    (fallPresence s).pending = s.pending ∧ (fallPresence s).pins = s.pins ∧ (fallPresence s).time = s.time ∧
    (fallPresence s).agreement = s.agreement ∧ (fallPresence s).inputs = s.inputs ∧
    (fallPresence s).pairs = s.pairs ∧ (fallPresence s).events = s.events ∧ (fallPresence s).checker = s.checker ∧
    (fallPresence s).report = s.report ∧ (fallPresence s).clocks = s.clocks ∧ (fallPresence s).supply = s.supply ∧
    (fallPresence s).port = s.port ∧ (fallPresence s).freeCount = s.freeCount := by simp [fallPresence]

@[simp] theorem ownerTakes_frame (how : FrameEnd) (w : FrameOwner) (s : State) :
    (ownerTakes how w s).pending = s.pending ∧ (ownerTakes how w s).pins = s.pins ∧
    (ownerTakes how w s).time = s.time ∧ (ownerTakes how w s).agreement = s.agreement ∧
    (ownerTakes how w s).inputs = s.inputs ∧ (ownerTakes how w s).pairs = s.pairs ∧
    (ownerTakes how w s).checker = s.checker ∧ (ownerTakes how w s).report = s.report ∧
    (ownerTakes how w s).clocks = s.clocks ∧ (ownerTakes how w s).supply = s.supply ∧
    (ownerTakes how w s).port = s.port ∧ (ownerTakes how w s).freeCount = s.freeCount := by
  unfold ownerTakes
  try dsimp only
  repeat' split
  all_goals simp

@[simp] theorem endOwnFrame_frame (how : FrameEnd) (f : OwnFrame) (s : State) :
    (endOwnFrame how f s).pending = s.pending ∧ (endOwnFrame how f s).pins = s.pins ∧
    (endOwnFrame how f s).time = s.time ∧ (endOwnFrame how f s).agreement = s.agreement ∧
    (endOwnFrame how f s).inputs = s.inputs ∧ (endOwnFrame how f s).pairs = s.pairs ∧
    (endOwnFrame how f s).checker = s.checker ∧ (endOwnFrame how f s).clocks = s.clocks ∧
    (endOwnFrame how f s).supply = s.supply ∧ (endOwnFrame how f s).port = s.port ∧
    (endOwnFrame how f s).freeCount = s.freeCount := by
  unfold endOwnFrame
  try dsimp only
  repeat' split
  all_goals simp

@[simp] theorem endTimeFrame_frame (f : TimeFrame) (s : State) :
    (endTimeFrame f s).pending = s.pending ∧ (endTimeFrame f s).pins = s.pins ∧
    (endTimeFrame f s).inputs = s.inputs ∧ (endTimeFrame f s).pairs = s.pairs ∧
    (endTimeFrame f s).supply = s.supply ∧ (endTimeFrame f s).port = s.port ∧
    (endTimeFrame f s).freeCount = s.freeCount := by
  unfold endTimeFrame
  dsimp only
  split
  · split <;> simp
  · simp

@[simp] theorem endNotice_frame (f : NoticeFrame) (s : State) :
    (endNotice f s).pending = s.pending ∧ (endNotice f s).pins = s.pins ∧ (endNotice f s).time = s.time ∧
    (endNotice f s).agreement = s.agreement ∧ (endNotice f s).inputs = s.inputs ∧ (endNotice f s).pairs = s.pairs ∧
    (endNotice f s).clocks = s.clocks ∧ (endNotice f s).supply = s.supply ∧ (endNotice f s).port = s.port ∧
    (endNotice f s).freeCount = s.freeCount := by
  unfold endNotice
  dsimp only
  repeat' split
  all_goals simp

@[simp] theorem endPresence_frame (f : PresenceFrame) (s : State) :
    (endPresence f s).pending = s.pending ∧ (endPresence f s).pins = s.pins ∧ (endPresence f s).time = s.time ∧
    (endPresence f s).agreement = s.agreement ∧ (endPresence f s).inputs = s.inputs ∧
    (endPresence f s).pairs = s.pairs ∧ (endPresence f s).checker = s.checker ∧
    (endPresence f s).clocks = s.clocks ∧ (endPresence f s).supply = s.supply ∧ (endPresence f s).port = s.port ∧
    (endPresence f s).freeCount = s.freeCount := by
  unfold endPresence
  dsimp only
  repeat' split
  all_goals simp

@[simp] theorem frameBegins_frame (mark : StartMark) (capture : Option Stamp) (s : State) :
    (frameBegins mark capture s).pending = s.pending ∧ (frameBegins mark capture s).pins = s.pins ∧
    (frameBegins mark capture s).time = s.time ∧ (frameBegins mark capture s).agreement = s.agreement ∧
    (frameBegins mark capture s).inputs = s.inputs ∧ (frameBegins mark capture s).pairs = s.pairs ∧
    (frameBegins mark capture s).events = s.events ∧ (frameBegins mark capture s).checker = s.checker ∧
    (frameBegins mark capture s).report = s.report ∧ (frameBegins mark capture s).clocks = s.clocks ∧
    (frameBegins mark capture s).supply = s.supply ∧ (frameBegins mark capture s).port = s.port ∧
    (frameBegins mark capture s).freeCount = s.freeCount := by simp [frameBegins]

@[simp] theorem putInput_frame (t : Fin 40) (i : InputState) (s : State) :
    (putInput t i s).pending = s.pending ∧ (putInput t i s).pins = s.pins ∧ (putInput t i s).time = s.time ∧
    (putInput t i s).agreement = s.agreement ∧ (putInput t i s).line = s.line ∧ (putInput t i s).pairs = s.pairs ∧
    (putInput t i s).events = s.events ∧ (putInput t i s).checker = s.checker ∧ (putInput t i s).report = s.report ∧
    (putInput t i s).clocks = s.clocks ∧ (putInput t i s).supply = s.supply ∧ (putInput t i s).port = s.port ∧
    (putInput t i s).freeCount = s.freeCount := by simp [putInput]

@[simp] theorem putLevel_frame (t : Fin 40) (level : Bool) (s : State) :
    (putLevel t level s).pending = s.pending ∧ (putLevel t level s).time = s.time ∧
    (putLevel t level s).agreement = s.agreement ∧ (putLevel t level s).line = s.line ∧
    (putLevel t level s).inputs = s.inputs ∧ (putLevel t level s).pairs = s.pairs ∧
    (putLevel t level s).events = s.events ∧ (putLevel t level s).checker = s.checker ∧
    (putLevel t level s).report = s.report ∧ (putLevel t level s).clocks = s.clocks ∧
    (putLevel t level s).supply = s.supply ∧ (putLevel t level s).port = s.port ∧
    (putLevel t level s).freeCount = s.freeCount := by simp [putLevel]

@[simp] theorem putPair_frame (k : Fin 8) (p : PairState) (s : State) :
    (putPair k p s).pending = s.pending ∧ (putPair k p s).pins = s.pins ∧ (putPair k p s).time = s.time ∧
    (putPair k p s).agreement = s.agreement ∧ (putPair k p s).line = s.line ∧ (putPair k p s).inputs = s.inputs ∧
    (putPair k p s).events = s.events ∧ (putPair k p s).checker = s.checker ∧ (putPair k p s).report = s.report ∧
    (putPair k p s).clocks = s.clocks ∧ (putPair k p s).supply = s.supply ∧ (putPair k p s).port = s.port ∧
    (putPair k p s).freeCount = s.freeCount := by simp [putPair]

@[simp] theorem takeEdge_frame (t : Fin 40) (settle : Nat) (level : Bool) (s : State) :
    (takeEdge t settle level s).pending = s.pending ∧ (takeEdge t settle level s).pins = s.pins ∧
    (takeEdge t settle level s).time = s.time ∧ (takeEdge t settle level s).agreement = s.agreement ∧
    (takeEdge t settle level s).line = s.line ∧ (takeEdge t settle level s).pairs = s.pairs ∧
    (takeEdge t settle level s).checker = s.checker ∧ (takeEdge t settle level s).clocks = s.clocks ∧
    (takeEdge t settle level s).supply = s.supply ∧ (takeEdge t settle level s).port = s.port ∧
    (takeEdge t settle level s).freeCount = s.freeCount := by
  unfold takeEdge
  try dsimp only
  repeat' split
  all_goals simp

@[simp] theorem closeMovement_frame (k : Fin 8) (v : Verdict) (m : MovementStart) (g : Signal) (next : PairState) (s : State) :
    (closeMovement k v m g next s).pending = s.pending ∧ (closeMovement k v m g next s).pins = s.pins ∧
    (closeMovement k v m g next s).time = s.time ∧ (closeMovement k v m g next s).agreement = s.agreement ∧
    (closeMovement k v m g next s).line = s.line ∧ (closeMovement k v m g next s).inputs = s.inputs ∧
    (closeMovement k v m g next s).checker = s.checker ∧ (closeMovement k v m g next s).clocks = s.clocks ∧
    (closeMovement k v m g next s).supply = s.supply ∧ (closeMovement k v m g next s).port = s.port ∧
    (closeMovement k v m g next s).freeCount = s.freeCount := by simp [closeMovement]

@[simp] theorem takeSignal_frame (k : Fin 8) (c : PairConfig) (g : Signal) (s : State) :
    (takeSignal k c g s).pending = s.pending ∧ (takeSignal k c g s).pins = s.pins ∧
    (takeSignal k c g s).time = s.time ∧ (takeSignal k c g s).agreement = s.agreement ∧
    (takeSignal k c g s).line = s.line ∧ (takeSignal k c g s).inputs = s.inputs ∧
    (takeSignal k c g s).checker = s.checker ∧ (takeSignal k c g s).clocks = s.clocks ∧
    (takeSignal k c g s).supply = s.supply ∧ (takeSignal k c g s).port = s.port ∧
    (takeSignal k c g s).freeCount = s.freeCount := by
  unfold takeSignal
  try dsimp only
  repeat' split
  all_goals simp

@[simp] theorem signalPair_frame (t : Fin 40) (on : Bool) (b : Burst) (k : Fin 8) (s : State) :
    (signalPair t on b s k).pending = s.pending ∧ (signalPair t on b s k).pins = s.pins ∧
    (signalPair t on b s k).time = s.time ∧ (signalPair t on b s k).agreement = s.agreement ∧
    (signalPair t on b s k).line = s.line ∧ (signalPair t on b s k).inputs = s.inputs ∧
    (signalPair t on b s k).checker = s.checker ∧ (signalPair t on b s k).clocks = s.clocks ∧
    (signalPair t on b s k).supply = s.supply ∧ (signalPair t on b s k).port = s.port ∧
    (signalPair t on b s k).freeCount = s.freeCount := by
  unfold signalPair
  dsimp only
  repeat' split
  all_goals simp

@[simp] theorem signalPairs_frame (t : Fin 40) (on : Bool) (b : Burst) (s : State) :
    (signalPairs t on b s).pending = s.pending ∧ (signalPairs t on b s).pins = s.pins ∧
    (signalPairs t on b s).time = s.time ∧ (signalPairs t on b s).agreement = s.agreement ∧
    (signalPairs t on b s).line = s.line ∧ (signalPairs t on b s).inputs = s.inputs ∧
    (signalPairs t on b s).checker = s.checker ∧ (signalPairs t on b s).clocks = s.clocks ∧
    (signalPairs t on b s).supply = s.supply ∧ (signalPairs t on b s).port = s.port ∧
    (signalPairs t on b s).freeCount = s.freeCount := by
  unfold signalPairs
  generalize List.finRange 8 = l
  induction l generalizing s with
  | nil => simp
  | cons k rest ih => simpa using ih (signalPair t on b s k)

@[simp] theorem takeLimit_frame (k : Fin 8) (s : State) :
    (takeLimit s k).pending = s.pending ∧ (takeLimit s k).pins = s.pins ∧ (takeLimit s k).time = s.time ∧
    (takeLimit s k).agreement = s.agreement ∧ (takeLimit s k).line = s.line ∧ (takeLimit s k).inputs = s.inputs ∧
    (takeLimit s k).checker = s.checker ∧ (takeLimit s k).clocks = s.clocks ∧ (takeLimit s k).supply = s.supply ∧
    (takeLimit s k).port = s.port ∧ (takeLimit s k).freeCount = s.freeCount := by
  unfold takeLimit
  try dsimp only
  repeat' split
  all_goals simp

@[simp] theorem takeUsedLimit_frame (t : Fin 40) (on : Bool) (k : Fin 8) (s : State) :
    (takeUsedLimit t on s k).pending = s.pending ∧ (takeUsedLimit t on s k).pins = s.pins ∧
    (takeUsedLimit t on s k).time = s.time ∧ (takeUsedLimit t on s k).agreement = s.agreement ∧
    (takeUsedLimit t on s k).line = s.line ∧ (takeUsedLimit t on s k).inputs = s.inputs ∧
    (takeUsedLimit t on s k).checker = s.checker ∧ (takeUsedLimit t on s k).clocks = s.clocks ∧
    (takeUsedLimit t on s k).supply = s.supply ∧ (takeUsedLimit t on s k).port = s.port ∧
    (takeUsedLimit t on s k).freeCount = s.freeCount := by
  unfold takeUsedLimit
  try dsimp only
  repeat' split
  all_goals simp

@[simp] theorem takeUsedLimits_frame (t : Fin 40) (on : Bool) (l : List (Fin 8)) (s : State) :
    (l.foldl (takeUsedLimit t on) s).pending = s.pending ∧ (l.foldl (takeUsedLimit t on) s).pins = s.pins ∧
    (l.foldl (takeUsedLimit t on) s).time = s.time ∧ (l.foldl (takeUsedLimit t on) s).agreement = s.agreement ∧
    (l.foldl (takeUsedLimit t on) s).line = s.line ∧ (l.foldl (takeUsedLimit t on) s).inputs = s.inputs ∧
    (l.foldl (takeUsedLimit t on) s).checker = s.checker ∧ (l.foldl (takeUsedLimit t on) s).clocks = s.clocks ∧
    (l.foldl (takeUsedLimit t on) s).supply = s.supply ∧ (l.foldl (takeUsedLimit t on) s).port = s.port ∧
    (l.foldl (takeUsedLimit t on) s).freeCount = s.freeCount := by
  induction l generalizing s with
  | nil => simp
  | cons k rest ih => simpa using ih (takeUsedLimit t on s k)

@[simp] theorem shareChange_frame (t : Fin 40) (urgent : Bool) (priority : Nat) (on : Bool) (b : Burst) (s : State) :
    (shareChange t urgent priority on b s).pending = s.pending ∧
    (shareChange t urgent priority on b s).pins = s.pins ∧ (shareChange t urgent priority on b s).time = s.time ∧
    (shareChange t urgent priority on b s).agreement = s.agreement ∧
    (shareChange t urgent priority on b s).inputs = s.inputs ∧
    (shareChange t urgent priority on b s).pairs = s.pairs ∧
    (shareChange t urgent priority on b s).checker = s.checker ∧
    (shareChange t urgent priority on b s).clocks = s.clocks ∧
    (shareChange t urgent priority on b s).supply = s.supply ∧
    (shareChange t urgent priority on b s).port = s.port ∧
    (shareChange t urgent priority on b s).freeCount = s.freeCount := by simp [shareChange]

@[simp] theorem keepChange_frame (t : Fin 40) (on : Bool) (b : Burst) (s : State) :
    (keepChange t on b s).pending = s.pending ∧ (keepChange t on b s).pins = s.pins ∧
    (keepChange t on b s).time = s.time ∧ (keepChange t on b s).agreement = s.agreement ∧
    (keepChange t on b s).line = s.line ∧ (keepChange t on b s).inputs = s.inputs ∧
    (keepChange t on b s).pairs = s.pairs ∧ (keepChange t on b s).checker = s.checker ∧
    (keepChange t on b s).clocks = s.clocks ∧ (keepChange t on b s).supply = s.supply ∧
    (keepChange t on b s).port = s.port ∧ (keepChange t on b s).freeCount = s.freeCount := by simp [keepChange]

@[simp] theorem recordChange_frame (t : Fin 40) (on : Bool) (b : Burst) (s : State) :
    (recordChange t on b s).pending = s.pending ∧ (recordChange t on b s).pins = s.pins ∧
    (recordChange t on b s).time = s.time ∧ (recordChange t on b s).agreement = s.agreement ∧
    (recordChange t on b s).inputs = s.inputs ∧ (recordChange t on b s).pairs = s.pairs ∧
    (recordChange t on b s).checker = s.checker ∧ (recordChange t on b s).clocks = s.clocks ∧
    (recordChange t on b s).supply = s.supply ∧ (recordChange t on b s).port = s.port ∧
    (recordChange t on b s).freeCount = s.freeCount := by
  unfold recordChange
  try dsimp only
  repeat' split
  all_goals simp

@[simp] theorem observeChange_frame (t : Fin 40) (on : Bool) (b : Burst) (s : State) :
    (observeChange t on b s).pending = s.pending ∧ (observeChange t on b s).pins = s.pins ∧
    (observeChange t on b s).time = s.time ∧ (observeChange t on b s).agreement = s.agreement ∧
    (observeChange t on b s).line = s.line ∧ (observeChange t on b s).inputs = s.inputs ∧
    (observeChange t on b s).pairs = s.pairs ∧ (observeChange t on b s).events = s.events ∧
    (observeChange t on b s).clocks = s.clocks ∧ (observeChange t on b s).supply = s.supply ∧
    (observeChange t on b s).port = s.port ∧ (observeChange t on b s).freeCount = s.freeCount := by
  unfold observeChange
  try dsimp only
  repeat' split
  all_goals simp

@[simp] theorem provenChange_frame (t : Fin 40) (on : Bool) (b : Burst) (s : State) :
    (provenChange t on b s).pending = s.pending ∧ (provenChange t on b s).pins = s.pins ∧
    (provenChange t on b s).time = s.time ∧ (provenChange t on b s).agreement = s.agreement ∧
    (provenChange t on b s).inputs = s.inputs ∧ (provenChange t on b s).clocks = s.clocks ∧
    (provenChange t on b s).supply = s.supply ∧ (provenChange t on b s).port = s.port ∧
    (provenChange t on b s).freeCount = s.freeCount := by simp [provenChange]

@[simp] theorem settle_frame (t : Fin 40) (b : Burst) (s : State) :
    (settle t b s).pending = s.pending ∧ (settle t b s).pins = s.pins ∧ (settle t b s).time = s.time ∧
    (settle t b s).agreement = s.agreement ∧ (settle t b s).clocks = s.clocks ∧ (settle t b s).supply = s.supply ∧
    (settle t b s).port = s.port ∧ (settle t b s).freeCount = s.freeCount := by
  unfold settle
  try dsimp only
  repeat' split
  all_goals simp

@[simp] theorem sampleInputs_frame (s : State) :
    (sampleInputs s).pending = s.pending ∧ (sampleInputs s).pins = s.pins ∧ (sampleInputs s).time = s.time ∧
    (sampleInputs s).agreement = s.agreement ∧ (sampleInputs s).line = s.line ∧ (sampleInputs s).pairs = s.pairs ∧
    (sampleInputs s).events = s.events ∧ (sampleInputs s).checker = s.checker ∧ (sampleInputs s).report = s.report ∧
    (sampleInputs s).clocks = s.clocks ∧ (sampleInputs s).supply = s.supply ∧ (sampleInputs s).port = s.port ∧
    (sampleInputs s).freeCount = s.freeCount := by simp [sampleInputs]

@[simp] theorem offerAtStart_frame (t : Fin 40) (s : State) :
    (offerAtStart s t).pending = s.pending ∧ (offerAtStart s t).pins = s.pins ∧ (offerAtStart s t).time = s.time ∧
    (offerAtStart s t).agreement = s.agreement ∧ (offerAtStart s t).line = s.line ∧
    (offerAtStart s t).inputs = s.inputs ∧ (offerAtStart s t).pairs = s.pairs ∧
    (offerAtStart s t).checker = s.checker ∧ (offerAtStart s t).clocks = s.clocks ∧
    (offerAtStart s t).supply = s.supply ∧ (offerAtStart s t).port = s.port ∧
    (offerAtStart s t).freeCount = s.freeCount := by
  unfold offerAtStart
  try dsimp only
  repeat' split
  all_goals simp

@[simp] theorem offerStatesAtStart_frame (s : State) :
    (offerStatesAtStart s).pending = s.pending ∧ (offerStatesAtStart s).pins = s.pins ∧
    (offerStatesAtStart s).time = s.time ∧ (offerStatesAtStart s).agreement = s.agreement ∧
    (offerStatesAtStart s).line = s.line ∧ (offerStatesAtStart s).inputs = s.inputs ∧
    (offerStatesAtStart s).pairs = s.pairs ∧ (offerStatesAtStart s).checker = s.checker ∧
    (offerStatesAtStart s).clocks = s.clocks ∧ (offerStatesAtStart s).supply = s.supply ∧
    (offerStatesAtStart s).port = s.port ∧ (offerStatesAtStart s).freeCount = s.freeCount := by
  unfold offerStatesAtStart
  generalize List.finRange 40 = l
  induction l generalizing s with
  | nil => simp
  | cons k rest ih => simpa using ih (offerAtStart s k)

@[simp] theorem takePulse_frame (expected : Date) (a : Arming) (s : State) :
    (takePulse expected a s).pending = s.pending ∧ (takePulse expected a s).pins = s.pins ∧
    (takePulse expected a s).inputs = s.inputs ∧ (takePulse expected a s).pairs = s.pairs ∧
    (takePulse expected a s).supply = s.supply ∧ (takePulse expected a s).port = s.port ∧
    (takePulse expected a s).freeCount = s.freeCount := by simp [takePulse]

@[simp] theorem takePulse_line (expected : Date) (a : Arming) (s : State) :
    (takePulse expected a s).line.remainder = s.line.remainder ∧
    (takePulse expected a s).line.objecting = s.line.objecting ∧ (takePulse expected a s).line.score = s.line.score ∧
    (takePulse expected a s).line.standing = s.line.standing ∧
    (takePulse expected a s).line.collisions = s.line.collisions ∧
    (takePulse expected a s).line.goodRun = s.line.goodRun ∧ (takePulse expected a s).line.txQueue = s.line.txQueue ∧
    (takePulse expected a s).line.nextOrder = s.line.nextOrder ∧
    (takePulse expected a s).line.ownSeq = s.line.ownSeq ∧ (takePulse expected a s).line.heard = s.line.heard ∧
    (takePulse expected a s).line.hits = s.line.hits := by simp [takePulse]

@[simp] theorem meetPulse_frame (s : State) :
    (meetPulse s).pending = s.pending ∧ (meetPulse s).pins = s.pins ∧ (meetPulse s).inputs = s.inputs ∧
    (meetPulse s).pairs = s.pairs ∧ (meetPulse s).supply = s.supply ∧ (meetPulse s).port = s.port ∧
    (meetPulse s).freeCount = s.freeCount := by
  unfold meetPulse
  try dsimp only
  repeat' split
  all_goals simp

@[simp] theorem meetPulse_line (s : State) :
    (meetPulse s).line.remainder = s.line.remainder ∧ (meetPulse s).line.objecting = s.line.objecting ∧
    (meetPulse s).line.score = s.line.score ∧ (meetPulse s).line.standing = s.line.standing ∧
    (meetPulse s).line.collisions = s.line.collisions ∧ (meetPulse s).line.goodRun = s.line.goodRun ∧
    (meetPulse s).line.txQueue = s.line.txQueue ∧ (meetPulse s).line.nextOrder = s.line.nextOrder ∧
    (meetPulse s).line.ownSeq = s.line.ownSeq ∧ (meetPulse s).line.heard = s.line.heard ∧
    (meetPulse s).line.hits = s.line.hits := by
  unfold meetPulse
  try dsimp only
  repeat' split
  all_goals simp

@[simp] theorem loseReference_frame (s : State) :
    (loseReference s).pending = s.pending ∧ (loseReference s).pins = s.pins ∧ (loseReference s).time = s.time ∧
    (loseReference s).line = s.line ∧ (loseReference s).inputs = s.inputs ∧ (loseReference s).pairs = s.pairs ∧
    (loseReference s).events = s.events ∧ (loseReference s).checker = s.checker ∧
    (loseReference s).clocks = s.clocks ∧ (loseReference s).supply = s.supply ∧ (loseReference s).port = s.port ∧
    (loseReference s).freeCount = s.freeCount := by
  unfold loseReference
  try dsimp only
  repeat' split
  all_goals simp

@[simp] theorem takeLevel_frame (t : Fin 40) (level : Bool) (s : State) :
    (takeLevel t level s).pending = s.pending ∧ (takeLevel t level s).pairs = s.pairs ∧
    (takeLevel t level s).supply = s.supply ∧ (takeLevel t level s).port = s.port ∧
    (takeLevel t level s).freeCount = s.freeCount := by
  unfold takeLevel
  try dsimp only
  repeat' split
  all_goals simp

@[simp] theorem takeLevel_line (t : Fin 40) (level : Bool) (s : State) :
    (takeLevel t level s).line.remainder = s.line.remainder ∧
    (takeLevel t level s).line.objecting = s.line.objecting ∧ (takeLevel t level s).line.score = s.line.score ∧
    (takeLevel t level s).line.standing = s.line.standing ∧
    (takeLevel t level s).line.collisions = s.line.collisions ∧ (takeLevel t level s).line.goodRun = s.line.goodRun ∧
    (takeLevel t level s).line.txQueue = s.line.txQueue ∧ (takeLevel t level s).line.nextOrder = s.line.nextOrder ∧
    (takeLevel t level s).line.ownSeq = s.line.ownSeq ∧ (takeLevel t level s).line.heard = s.line.heard ∧
    (takeLevel t level s).line.hits = s.line.hits := by
  unfold takeLevel
  try dsimp only
  repeat' split
  all_goals simp

@[simp] theorem putSupply_frame (v : Supply) (s : State) :
    (putSupply v s).pending = s.pending ∧ (putSupply v s).time = s.time ∧ (putSupply v s).agreement = s.agreement ∧
    (putSupply v s).line = s.line ∧ (putSupply v s).inputs = s.inputs ∧ (putSupply v s).pairs = s.pairs ∧
    (putSupply v s).events = s.events ∧ (putSupply v s).checker = s.checker ∧ (putSupply v s).report = s.report ∧
    (putSupply v s).clocks = s.clocks ∧ (putSupply v s).supply = s.supply ∧ (putSupply v s).port = s.port ∧
    (putSupply v s).freeCount = s.freeCount := by simp [putSupply]

@[simp] theorem takeSupply_frame (v : Supply) (s : State) :
    (takeSupply v s).pending = s.pending ∧ (takeSupply v s).pins = s.pins ∧ (takeSupply v s).time = s.time ∧
    (takeSupply v s).agreement = s.agreement ∧ (takeSupply v s).line = s.line ∧ (takeSupply v s).inputs = s.inputs ∧
    (takeSupply v s).pairs = s.pairs ∧ (takeSupply v s).events = s.events ∧ (takeSupply v s).checker = s.checker ∧
    (takeSupply v s).report = s.report ∧ (takeSupply v s).port = s.port ∧ (takeSupply v s).freeCount = s.freeCount := by simp [takeSupply]

@[simp] theorem clockOutAnswer_frame (n : Nat) (s : State) :
    (clockOutAnswer n s).pending = s.pending ∧ (clockOutAnswer n s).pins = s.pins ∧
    (clockOutAnswer n s).time = s.time ∧ (clockOutAnswer n s).agreement = s.agreement ∧
    (clockOutAnswer n s).line = s.line ∧ (clockOutAnswer n s).inputs = s.inputs ∧
    (clockOutAnswer n s).pairs = s.pairs ∧ (clockOutAnswer n s).events = s.events ∧
    (clockOutAnswer n s).checker = s.checker ∧ (clockOutAnswer n s).report = s.report ∧
    (clockOutAnswer n s).clocks = s.clocks ∧ (clockOutAnswer n s).supply = s.supply := by simp [clockOutAnswer]

@[simp] theorem discardPeriod_frame (n : Nat) (s : State) :
    (discardPeriod n s).pending = s.pending ∧ (discardPeriod n s).pins = s.pins ∧
    (discardPeriod n s).time = s.time ∧ (discardPeriod n s).agreement = s.agreement ∧
    (discardPeriod n s).line = s.line ∧ (discardPeriod n s).inputs = s.inputs ∧
    (discardPeriod n s).pairs = s.pairs ∧ (discardPeriod n s).events = s.events ∧
    (discardPeriod n s).checker = s.checker ∧ (discardPeriod n s).report = s.report ∧
    (discardPeriod n s).clocks = s.clocks ∧ (discardPeriod n s).supply = s.supply ∧
    (discardPeriod n s).freeCount = s.freeCount := by simp [discardPeriod]

@[simp] theorem holdAnswer_frame (a : List Octet) (s : State) :
    (holdAnswer a s).pending = s.pending ∧ (holdAnswer a s).pins = s.pins ∧ (holdAnswer a s).time = s.time ∧
    (holdAnswer a s).agreement = s.agreement ∧ (holdAnswer a s).line = s.line ∧ (holdAnswer a s).inputs = s.inputs ∧
    (holdAnswer a s).pairs = s.pairs ∧ (holdAnswer a s).events = s.events ∧ (holdAnswer a s).checker = s.checker ∧
    (holdAnswer a s).report = s.report ∧ (holdAnswer a s).clocks = s.clocks ∧ (holdAnswer a s).supply = s.supply ∧
    (holdAnswer a s).freeCount = s.freeCount := by simp [holdAnswer]

@[simp] theorem writeItem_frame (i : ImageItem) (s : State) :
    (writeItem i s).pending = s.pending ∧ (writeItem i s).pins = s.pins ∧ (writeItem i s).time = s.time ∧
    (writeItem i s).agreement = s.agreement ∧ (writeItem i s).inputs = s.inputs ∧ (writeItem i s).pairs = s.pairs ∧
    (writeItem i s).events = s.events ∧ (writeItem i s).checker = s.checker ∧ (writeItem i s).supply = s.supply ∧
    (writeItem i s).freeCount = s.freeCount := by simp [writeItem]

@[simp] theorem carryOutStart_frame (s : State) :
    (carryOutStart s).pending = s.pending ∧ (carryOutStart s).pins = s.pins ∧ (carryOutStart s).time = s.time ∧
    (carryOutStart s).pairs = s.pairs ∧ (carryOutStart s).checker = s.checker ∧
    (carryOutStart s).clocks = s.clocks ∧ (carryOutStart s).supply = s.supply ∧
    (carryOutStart s).freeCount = s.freeCount := by simp [carryOutStart]

@[simp] theorem restartBlocks_frame (s : State) :
    (restartBlocks s).pending = s.pending ∧ (restartBlocks s).pins = s.pins ∧ (restartBlocks s).supply = s.supply ∧
    (restartBlocks s).freeCount = s.freeCount := by simp [restartBlocks]

@[simp] theorem removeHead_frame (s : State) :
    (removeHead s).pending = s.pending ∧ (removeHead s).pins = s.pins ∧ (removeHead s).time = s.time ∧
    (removeHead s).agreement = s.agreement ∧ (removeHead s).line = s.line ∧ (removeHead s).inputs = s.inputs ∧
    (removeHead s).pairs = s.pairs ∧ (removeHead s).events = s.events ∧ (removeHead s).checker = s.checker ∧
    (removeHead s).clocks = s.clocks ∧ (removeHead s).supply = s.supply ∧ (removeHead s).port = s.port ∧
    (removeHead s).freeCount = s.freeCount := by simp [removeHead]

@[simp] theorem acceptEntry_frame (f : LoadFields) (s : State) :
    (acceptEntry f s).pending = s.pending ∧ (acceptEntry f s).pins = s.pins ∧ (acceptEntry f s).time = s.time ∧
    (acceptEntry f s).agreement = s.agreement ∧ (acceptEntry f s).line = s.line ∧
    (acceptEntry f s).inputs = s.inputs ∧ (acceptEntry f s).pairs = s.pairs ∧ (acceptEntry f s).events = s.events ∧
    (acceptEntry f s).clocks = s.clocks ∧ (acceptEntry f s).supply = s.supply ∧ (acceptEntry f s).port = s.port ∧
    (acceptEntry f s).freeCount = s.freeCount := by simp [acceptEntry]

@[simp] theorem armReference_frame (d : Date) (s : State) :
    (armReference d s).pending = s.pending ∧ (armReference d s).pins = s.pins ∧ (armReference d s).time = s.time ∧
    (armReference d s).line = s.line ∧ (armReference d s).inputs = s.inputs ∧ (armReference d s).pairs = s.pairs ∧
    (armReference d s).events = s.events ∧ (armReference d s).checker = s.checker ∧
    (armReference d s).report = s.report ∧ (armReference d s).clocks = s.clocks ∧
    (armReference d s).supply = s.supply ∧ (armReference d s).port = s.port ∧
    (armReference d s).freeCount = s.freeCount := by simp [armReference]

@[simp] theorem dialLine_frame (line : Fin 4) (position : Nat) (s : State) :
    (dialLine line position s).pending = s.pending ∧ (dialLine line position s).pins = s.pins ∧
    (dialLine line position s).time = s.time ∧ (dialLine line position s).agreement = s.agreement ∧
    (dialLine line position s).line = s.line ∧ (dialLine line position s).inputs = s.inputs ∧
    (dialLine line position s).pairs = s.pairs ∧ (dialLine line position s).events = s.events ∧
    (dialLine line position s).checker = s.checker ∧ (dialLine line position s).report = s.report ∧
    (dialLine line position s).supply = s.supply ∧ (dialLine line position s).port = s.port ∧
    (dialLine line position s).freeCount = s.freeCount := by simp [dialLine]

@[simp] theorem endQualification_frame (s : State) :
    (endQualification s).pending = s.pending ∧ (endQualification s).pins = s.pins ∧
    (endQualification s).agreement = s.agreement ∧ (endQualification s).line = s.line ∧
    (endQualification s).inputs = s.inputs ∧ (endQualification s).pairs = s.pairs ∧
    (endQualification s).events = s.events ∧ (endQualification s).checker = s.checker ∧
    (endQualification s).report = s.report ∧ (endQualification s).clocks = s.clocks ∧
    (endQualification s).freeCount = s.freeCount := by simp [endQualification]

@[simp] theorem clearBoundary_frame (line : Fin 4) (s : State) :
    (clearBoundary line s).pending = s.pending ∧ (clearBoundary line s).pins = s.pins ∧
    (clearBoundary line s).agreement = s.agreement ∧ (clearBoundary line s).line = s.line ∧
    (clearBoundary line s).inputs = s.inputs ∧ (clearBoundary line s).pairs = s.pairs ∧
    (clearBoundary line s).events = s.events ∧ (clearBoundary line s).checker = s.checker ∧
    (clearBoundary line s).report = s.report ∧ (clearBoundary line s).clocks = s.clocks ∧
    (clearBoundary line s).supply = s.supply ∧ (clearBoundary line s).port = s.port ∧
    (clearBoundary line s).freeCount = s.freeCount := by simp [clearBoundary]

@[simp] theorem passMicrosecond_frame (s : State) :
    (passMicrosecond s).pending = s.pending ∧ (passMicrosecond s).pins = s.pins ∧
    (passMicrosecond s).agreement = s.agreement ∧ (passMicrosecond s).line = s.line ∧
    (passMicrosecond s).inputs = s.inputs ∧ (passMicrosecond s).pairs = s.pairs ∧
    (passMicrosecond s).events = s.events ∧ (passMicrosecond s).checker = s.checker ∧
    (passMicrosecond s).report = s.report ∧ (passMicrosecond s).clocks = s.clocks ∧
    (passMicrosecond s).supply = s.supply ∧ (passMicrosecond s).port = s.port ∧
    (passMicrosecond s).freeCount = s.freeCount := by simp [passMicrosecond]

end Sys2Proof.Machine
end

