-- ==== Sys2Proof/Laws/Agreement.lean ====
section
/-! SUPPORT. The discipline computation and the offset as the agreement controller takes it. -/

namespace Sys2Proof.Machine

/-- The time base after the discipline computation is that of `disciplineTime` (R12). -/
@[simp] theorem discipline_time (d : Int) (s : State) :
    (discipline d s).2.time = (disciplineTime d s.agreement.timeState s.time).2 ∧
    (discipline d s).1 = (disciplineTime d s.agreement.timeState s.time).1 := by
  simp only [discipline]
  split <;> simp

/-- Time base and agreement controller after an offset from a source (R54, R66). -/
theorem giveOffset_time (kind : SourceKind) (grade : Nat) (d : Int) (s : State) :
    (giveOffset kind grade d s).time = (disciplineTime d s.agreement.timeState s.time).2 ∧
    (giveOffset kind grade d s).agreement =
      takeOutcome s.time.elapsed kind grade (disciplineTime d s.agreement.timeState s.time).1 s.agreement := by
  simp [giveOffset]

/-- What the discipline computation keeps of the time base (R10 to R18). -/
@[simp] theorem disciplineTime_rest (d : Int) (ts : TimeState) (t : TimeBase) :
    (disciplineTime d ts t).2.qualified = t.qualified ∧ (disciplineTime d ts t).2.elapsed = t.elapsed ∧
    (disciplineTime d ts t).2.markDue = t.markDue ∧ (disciplineTime d ts t).2.boundaryDue = t.boundaryDue := by
  unfold disciplineTime meetOutlier slewBy stepBy
  split_ifs
  · simp
  · simp
  · split
    · simp
    · split_ifs <;> simp
  · simp

end Sys2Proof.Machine
end

