-- ==== Sys2Proof/Laws/Checker.lean ====
section
/-! SUPPORT. The deadline list and its runs (section 8.4): what is inserted, what a run does with the head, and that
it ends with no item due. -/

namespace Sys2Proof.Machine

theorem insertDeadline_perm (d : Deadline) (l : List Deadline) : (insertDeadline d l).Perm (d :: l) := by
  induction l with
  | nil => exact List.Perm.refl _
  | cons e rest ih =>
    unfold insertDeadline
    split
    · exact List.Perm.refl _
    · exact (List.Perm.cons e ih).trans (List.Perm.swap d e rest)

@[simp] theorem putEntry_rest (slot : Fin 256) (e : Option CheckEntry) (c : Checker) :
    (putEntry slot e c).deadlines = c.deadlines ∧ (putEntry slot e c).refused = c.refused ∧
    (putEntry slot e c).unmatched = c.unmatched := by simp [putEntry]

@[simp] theorem voidSuccessors_rest (slot : Fin 256) (c : Checker) :
    (voidSuccessors slot c).deadlines = c.deadlines ∧ (voidSuccessors slot c).refused = c.refused ∧
    (voidSuccessors slot c).unmatched = c.unmatched := by simp [voidSuccessors]

/-- A due item is the head of the list. -/
theorem deadlines_of_due {s : State} {d : Deadline} (h : dueDeadline s = some d) :
    s.checker.deadlines = d :: s.checker.deadlines.tail := by
  unfold dueDeadline at h
  cases hl : s.checker.deadlines with
  | nil => simp [hl] at h
  | cons e rest =>
    simp only [hl] at h
    split at h
    · simp only [Option.some.injEq] at h
      subst h
      rfl
    · simp at h

/-- How many items can still fire in one run: an OPEN item brings one MISS item. -/
def firesLeft (s : State) : Nat :=
  (s.checker.deadlines.map fun d => if d.kind = .opening then 2 else 1).sum

theorem firesLeft_le (s : State) : firesLeft s ≤ 2 * s.checker.deadlines.length := by
  unfold firesLeft
  induction s.checker.deadlines with
  | nil => simp
  | cons d rest ih => simp only [List.map_cons, List.sum_cons, List.length_cons]; split <;> omega

theorem insertDeadline_sum (d : Deadline) (l : List Deadline) (f : Deadline → Nat) :
    ((insertDeadline d l).map f).sum = f d + (l.map f).sum := by
  simpa using ((insertDeadline_perm d l).map f).sum_eq

theorem firesLeft_fireHead {d : Deadline} {s : State} (h : dueDeadline s = some d) :
    firesLeft (fireHead d s) < firesLeft s := by
  unfold fireHead firesLeft
  rw [deadlines_of_due h]
  dsimp only
  cases hk : d.kind with
  | opening =>
    simp only [List.map_cons, List.sum_cons, hk, if_true, List.tail_cons]
    unfold fireOpen
    dsimp only
    split
    · split
      · simp only [insertDeadline_sum]; simp
      · simp
    · simp
  | miss =>
    simp only [List.map_cons, List.sum_cons, hk, List.tail_cons]
    unfold fireMiss
    dsimp only
    split
    · split <;> simp
    · simp

/-- Enough fuel is as good as more, and leaves no item due. -/
theorem fireItems_enough (n m : Nat) (s : State) (hn : firesLeft s ≤ n) (hm : firesLeft s ≤ m) :
    fireItems n s = fireItems m s ∧ dueDeadline (fireItems n s) = none := by
  induction n generalizing m s with
  | zero =>
    have hnone : dueDeadline s = none := by
      cases h : dueDeadline s with
      | none => rfl
      | some d => have := firesLeft_fireHead h; omega
    cases m <;> simp [fireItems, hnone]
  | succ n ih =>
    cases hd : dueDeadline s with
    | none => cases m <;> simp [fireItems, hd]
    | some d =>
      have := firesLeft_fireHead hd
      cases m with
      | zero => omega
      | succ m =>
        simp only [fireItems, hd]
        exact ih m (fireHead d s) (by omega) (by omega)

/-- A run with an item due fires it and goes on. -/
theorem runDeadlines_of_due {s : State} {d : Deadline} (h : dueDeadline s = some d) :
    runDeadlines s = runDeadlines (fireHead d s) := by
  have h1 := firesLeft_fireHead h
  have h2 := firesLeft_le s
  have h3 := firesLeft_le (fireHead d s)
  unfold runDeadlines
  obtain ⟨n, hn⟩ : ∃ n, 2 * s.checker.deadlines.length = n + 1 := ⟨2 * s.checker.deadlines.length - 1, by omega⟩
  have hf : fireItems (n + 1) s = fireItems n (fireHead d s) := by simp [fireItems, h]
  rw [hn, hf]
  exact (fireItems_enough _ _ _ (by omega) (by omega)).1

/-- A run with no item due does nothing. -/
theorem runDeadlines_of_none {s : State} (h : dueDeadline s = none) : runDeadlines s = s := by
  unfold runDeadlines
  cases 2 * s.checker.deadlines.length <;> simp [fireItems, h]

/-- A run ends with no item due. -/
theorem dueDeadline_runDeadlines (s : State) : dueDeadline (runDeadlines s) = none :=
  (fireItems_enough _ _ s (firesLeft_le s) (firesLeft_le s)).2

/-- A property of the checker and of the report unit that every firing keeps is kept by a run. -/
theorem runDeadlines_induct {p : State → Prop} (hp : ∀ s d, dueDeadline s = some d → p s → p (fireHead d s))
    (s : State) (h : p s) : p (runDeadlines s) := by
  unfold runDeadlines
  generalize 2 * s.checker.deadlines.length = n
  induction n generalizing s with
  | zero => exact h
  | succ n ih =>
    unfold fireItems
    cases hd : dueDeadline s with
    | none => exact h
    | some d => exact ih _ (hp s d hd h)

end Sys2Proof.Machine
end

