-- ==== Sys2Proof/Laws/Clocks.lean ====
section
/-! SUPPORT. The clock-line driver: what the decision of R176 and a suspension do to a line record. -/

namespace Sys2Proof.Machine

/-- The decision of R176 on one line leaves the others. -/
theorem decideLine_clocks (line k : Fin 4) (s : State) :
    (decideLine line s).clocks[k] = if k = line then decidedLine s k else s.clocks[k] := by
  by_cases h : k = line
  · subst h; simp [decideLine]
  · have : (line : Nat) ≠ k := fun e => h (Fin.ext e.symm)
    simp [decideLine, h, Vector.getElem_set_ne, this]

theorem decideLines_clocks (k : Fin 4) (s : State) : (decideLines s).clocks[k] = decidedLine s k := by
  simp [decideLines]

/-- A line that does not start a pulse is as it was. -/
theorem decidedLine_of_not_due {s : State} {k : Fin 4} (h : pulseDue s k = false) : decidedLine s k = s.clocks[k] := by
  simp [decidedLine, h]

/-- A pulse is called for on an ACTIVE line without a pulse in flight alone (R176). -/
theorem pulseCalled_active {now : Elapsed} {us : Nat} {c : ClockConfig} {l : ClockLine}
    (h : pulseCalled now us c l = true) : l.state = .active ∧ l.pulse = none ∧ l.dial.isSome = true := by
  unfold pulseCalled at h
  split at h <;> simp_all

/-- The decision changes no state, dial position or count (R176, R177). -/
@[simp] theorem decidedLine_rest (s : State) (k : Fin 4) :
    (decidedLine s k).state = s.clocks[k].state ∧ (decidedLine s k).dial = s.clocks[k].dial ∧
    (decidedLine s k).nextPolarity = s.clocks[k].nextPolarity ∧ (decidedLine s k).unproven = s.clocks[k].unproven := by
  unfold decidedLine startPulse
  split <;> simp

/-- A suspension changes the state alone (R173). -/
@[simp] theorem suspendLine_rest (cause : Bool) (l : ClockLine) :
    (suspendLine cause l).dial = l.dial ∧ (suspendLine cause l).nextPolarity = l.nextPolarity ∧
    (suspendLine cause l).pulse = l.pulse ∧ (suspendLine cause l).unproven = l.unproven ∧
    (suspendLine cause l).lastStart = l.lastStart ∧ (suspendLine cause l).driveA = l.driveA ∧
    (suspendLine cause l).driveB = l.driveB := by
  unfold suspendLine
  split <;> simp

/-- Which state a suspension leaves (R173). -/
theorem suspendLine_state (cause : Bool) (l : ClockLine) :
    (suspendLine cause l).state =
      if l.state = .active ∧ cause = true then .suspended
      else if l.state = .suspended ∧ cause = false then .active else l.state := by
  unfold suspendLine
  cases h : l.state <;> cases cause <;> simp [h]

end Sys2Proof.Machine
end

