-- ==== Sys2Proof/Laws/Dates.lean ====
section
/-! SUPPORT. The arithmetic of R7 in linear form. The lengths of a day and of the cycle are large numerals: generalize
a date difference to a variable before `omega`, and use these lemmas instead of unfolding. -/

namespace Sys2Proof.Machine

theorem dayLength_eq : dayLength = 86400000000 := rfl

theorem cycleLength_eq : cycleLength = 5662310400000000 := rfl

/-- A difference of dates is that of their places on the cycle, up to whole cycles, within half a cycle. -/
theorem dateDiff_linear (a b : Date) :
    ∃ q : Int, dateDiff a b = (placeDate a : Int) - placeDate b + q * 5662310400000000 ∧
      -2831155200000000 ≤ dateDiff a b ∧ dateDiff a b < 2831155200000000 := by
  have hc : (cycleLength : Int) = 5662310400000000 := by norm_num [cycleLength, dayLength]
  unfold dateDiff
  rw [hc]
  generalize ((placeDate a : Int) - placeDate b) = x
  dsimp only
  by_cases h : x % 5662310400000000 < 5662310400000000 / 2
  · rw [if_pos h]; exact ⟨-(x / 5662310400000000), by omega, by omega, by omega⟩
  · rw [if_neg h]; exact ⟨-(x / 5662310400000000) - 1, by omega, by omega, by omega⟩

/-- A sum is in range, and its place is that of the date moved by the count, up to whole cycles. -/
theorem dateAdd_linear (d : Date) (n : Int) :
    ∃ q : Int, (placeDate (dateAdd d n) : Int) = placeDate d + n + q * 5662310400000000 ∧
      (dateAdd d n).day < 65536 ∧ (dateAdd d n).us < 86400000000 := by
  have hc : (cycleLength : Int) = 5662310400000000 := by norm_num [cycleLength, dayLength]
  have hd : dayLength = 86400000000 := rfl
  unfold dateAdd
  rw [hc, hd]
  generalize ((placeDate d : Int) + n) = x
  simp only [placeDate, hd]
  exact ⟨-(x / 5662310400000000), by omega, by omega, by omega⟩

/-- A date in range is known by its place on the cycle. -/
theorem placeDate_injective {a b : Date} (ha : a.us < 86400000000) (hb : b.us < 86400000000)
    (h : placeDate a = placeDate b) : a = b := by
  obtain ⟨ad, au⟩ := a
  obtain ⟨bd, bu⟩ := b
  have hd : dayLength = 86400000000 := rfl
  simp only [placeDate, hd] at *
  obtain rfl : ad = bd := by omega
  obtain rfl : au = bu := by omega
  rfl

end Sys2Proof.Machine
end

