-- ==== Sys2Proof/Laws/Report.lean ====
section
/-! SUPPORT. The report unit and the event queue: what a raising, a deviation and an offer leave of the report unit and
of the queue. -/

namespace Sys2Proof.Machine

/-- What a raising does to the report unit. -/
theorem raiseUrgent_report (c : Urgent) (d : DatedEpoch) (s : State) :
    (raiseUrgent c d s).report = raiseInReport s.port.image.attention c d s.report := rfl

@[simp] theorem raiseInReport_rest (threshold : Nat) (c : Urgent) (d : DatedEpoch) (r : ReportUnit) :
    (raiseInReport threshold c d r).deviations = r.deviations ∧ (raiseInReport threshold c d r).nextSeq = r.nextSeq ∧
    (raiseInReport threshold c d r).displaced = r.displaced := by simp [raiseInReport, refreshAttention]

@[simp] theorem refreshAttention_rest (threshold : Nat) (r : ReportUnit) :
    (refreshAttention threshold r).deviations = r.deviations ∧ (refreshAttention threshold r).nextSeq = r.nextSeq ∧
    (refreshAttention threshold r).displaced = r.displaced ∧ (refreshAttention threshold r).urgent = r.urgent ∧
    (refreshAttention threshold r).attention = attentionCalled threshold r := by simp [refreshAttention]

theorem insertDeviation_perm (d : Deviation) (l : List Deviation) : (insertDeviation d l).Perm (d :: l) := by
  induction l with
  | nil => exact List.Perm.refl _
  | cons e rest ih =>
    unfold insertDeviation
    split
    · exact List.Perm.refl _
    · exact (List.Perm.cons e ih).trans (List.Perm.swap d e rest)

/-- The three cases of R159. -/
theorem offerDeviation_cases (d : Deviation) (r : ReportUnit) :
    (r.deviations.length < 64 ∧ offerDeviation d r = { r with deviations := insertDeviation d r.deviations }) ∨
    (64 ≤ r.deviations.length ∧ ∃ lowest, r.deviations.getLast? = some lowest ∧ lowest.grade < d.grade ∧
      offerDeviation d r = { r with
        deviations := insertDeviation d r.deviations.dropLast
        displaced := saturatingAdd 65535 r.displaced 1 }) ∨
    (64 ≤ r.deviations.length ∧ ∃ lowest, r.deviations.getLast? = some lowest ∧ d.grade ≤ lowest.grade ∧
      offerDeviation d r = { r with displaced := saturatingAdd 65535 r.displaced 1 }) := by
  by_cases h : r.deviations.length < 64
  · exact .inl ⟨h, by simp [offerDeviation, h]⟩
  · right
    cases hl : r.deviations.getLast? with
    | none =>
      have : r.deviations = [] := List.getLast?_eq_none_iff.mp hl
      simp [this] at h
    | some lowest =>
      by_cases hg : lowest.grade < d.grade
      · exact .inl ⟨by omega, lowest, rfl, hg, by simp [offerDeviation, h, hl, hg]⟩
      · exact .inr ⟨by omega, lowest, rfl, by omega, by simp [offerDeviation, h, hl, hg]⟩

/-- A report of a broadcast state changes no number of records. -/
@[simp] theorem writeBroadcast_length (b : Broadcast) (n : SeqNumber) (l : List EventRecord) :
    (writeBroadcast b n l).length = l.length := by
  induction l with
  | nil => rfl
  | cons r rest ih =>
    unfold writeBroadcast
    split
    · split <;> simp [ih]
    · simp [ih]

@[simp] theorem reportBroadcast_events (b : Broadcast) (n : SeqNumber) (s : State) :
    (reportBroadcast b n s).events.records = writeBroadcast b n s.events.records ∧
    (reportBroadcast b n s).events.nextSeq = s.events.nextSeq ∧ (reportBroadcast b n s).events.lost = s.events.lost ∧
    (reportBroadcast b n s).events.cause = s.events.cause := by simp [reportBroadcast]

/-- A field-class record needs 4 places more than a marker does (R100). -/
theorem hasRoom_iff (body : EventBody) (n : Nat) :
    hasRoom body n = true ↔ n < 508 ∨ (n < 512 ∧ isFieldClass body = false) := by
  unfold hasRoom
  cases h : isFieldClass body <;> simp
  omega

end Sys2Proof.Machine
end

