-- ==== Sys2Proof/Laws/Line.lean ====
section
/-! SUPPORT. The line controller: the transmit queue's insertion, what a score and a frame end leave of the line
controller, the peers of a station, and the entry of the acceptance list that decides. -/

namespace Sys2Proof.Machine

theorem insertItem_perm (it : TxItem) (l : List TxItem) : (insertItem it l).Perm (it :: l) := by
  induction l with
  | nil => exact List.Perm.refl _
  | cons e rest ih =>
    unfold insertItem
    split
    · exact List.Perm.refl _
    · exact (List.Perm.cons e ih).trans (List.Perm.swap it e rest)

/-- Entry to WITHDRAWN (R38): the line controller after it. -/
@[simp] theorem enterWithdrawn_line (s : State) :
    (enterWithdrawn s).line = { s.line with txQueue := [], standing := .withdrawn, goodRun := some 0 } := by
  simp [enterWithdrawn, raiseUrgentNow, raiseUrgent]

/-- A score taken outside WITHDRAWN (R36): the line controller after it. -/
theorem takeScore_line (score : Nat) (s : State) :
    (takeScore score s).line =
      if 192 ≤ score then { s.line with score := score, txQueue := [], standing := .withdrawn, goodRun := some 0 }
      else { s.line with score := score, standing := standingOfScore score } := by
  unfold takeScore
  dsimp only
  split <;> simp

/-- The score decides nothing but score, standing, queue, good-frame run and collision count. -/
@[simp] theorem scoreGoodFrame_line (own remainder : Bool) (s : State) :
    (scoreGoodFrame own remainder s).line.heard = s.line.heard ∧ (scoreGoodFrame own remainder s).line.hits = s.line.hits ∧
    (scoreGoodFrame own remainder s).line.condition = s.line.condition ∧
    (scoreGoodFrame own remainder s).line.leadIn = s.line.leadIn ∧
    (scoreGoodFrame own remainder s).line.ownFrame = s.line.ownFrame ∧
    (scoreGoodFrame own remainder s).line.ownSeq = s.line.ownSeq := by
  simp only [scoreGoodFrame, runTowardReturn, duplicateStation, takeScore]
  split_ifs <;> simp

/-- The end of a good frame (R24, R33): the gap begins, and the tables of chapter 7 stay. -/
@[simp] theorem endGoodFrame_line (origin : BitVec 6) (s : State) :
    (endGoodFrame origin s).line.heard = s.line.heard ∧ (endGoodFrame origin s).line.hits = s.line.hits ∧
    (endGoodFrame origin s).line.condition = .gap ∧ (endGoodFrame origin s).line.leadIn = none := by
  simp only [endGoodFrame]
  split_ifs <;> simp [gapBegins]

/-- A frame whose origin is a peer's is not the station's own, and is handed on (R116). -/
theorem peerOf_some {origin : BitVec 6} {s : State} {k : Fin 62} (h : peerOf origin s = some k) :
    (origin == ownOrigin s) = false ∧ handedOn origin = true ∧ origin.toNat = k.val + 1 := by
  unfold peerOf at h
  split at h
  · rename_i hr
    split at h
    · simp at h
    · rename_i ho
      simp only [Option.some.injEq] at h
      subst h
      refine ⟨by simpa using ho, by simp [handedOn, hr], ?_⟩
      simp only
      omega
  · simp at h

/-- A peer is told by the configuration alone. -/
theorem peerOf_congr {origin : BitVec 6} {s t : State} (h : t.port = s.port) : peerOf origin t = peerOf origin s := by
  unfold peerOf ownOrigin
  rw [h]

/-- A source is judged by agreement controller, epoch and configuration (R53). -/
theorem lineSource_congr {f : TimeFrame} {c : Stamp} {s t : State} (h1 : t.agreement = s.agreement)
    (h2 : t.time = s.time) (h3 : t.port = s.port) : lineSource f c t = lineSource f c s := by
  unfold lineSource ownOrigin
  rw [h1, h2, h3]

/-- The restart of the silence timer changes the timer alone (R58). -/
@[simp] theorem restartSilence_rest (now : Elapsed) (a : Agreement) :
    (restartSilence now a).timeState = a.timeState ∧ (restartSilence now a).grade = a.grade ∧
    (restartSilence now a).arming = a.arming ∧ (restartSilence now a).sourceGrade = a.sourceGrade ∧
    (restartSilence now a).phase = a.phase ∧ (restartSilence now a).holdover = a.holdover := by
  unfold restartSilence
  split <;> simp

/-! ## The acceptance list -/

/-- Equality under a mask, place by place. -/
theorem masked_eq_iff (x value mask : BitVec 6) :
    (x &&& mask == value &&& mask) = true ↔
      ∀ place < 6, mask.getLsbD place = true → x.getLsbD place = value.getLsbD place := by
  rw [beq_iff_eq]
  constructor
  · intro h place _ hm
    simpa [hm] using congrArg (·.getLsbD place) h
  · intro h
    refine BitVec.eq_of_getLsbD_eq fun place hp => ?_
    cases hm : mask.getLsbD place <;> simp [hm]
    exact h place hp hm

/-- An acceptance entry matches when both comparisons of R125 hold, place by place. -/
theorem acceptMatches_iff (origin channel : BitVec 6) (a : AcceptEntry) :
    acceptMatches origin channel a = true ↔
      (∀ place < 6, a.originMask.getLsbD place = true → origin.getLsbD place = a.originValue.getLsbD place) ∧
        ∀ place < 6, a.channelMask.getLsbD place = true → channel.getLsbD place = a.channelValue.getLsbD place := by
  rw [acceptMatches, Bool.and_eq_true, masked_eq_iff, masked_eq_iff]

/-- The entry that decides is the first that matches (R126). -/
theorem decidingEntry_eq_some_iff (origin channel : BitVec 6) (l : Vector (Option AcceptEntry) 16) (i : Fin 16) :
    decidingEntry origin channel l = some i ↔
      entryMatches origin channel l i = true ∧ ∀ j < i, entryMatches origin channel l j = false := by
  rw [decidingEntry, List.find?_eq_some_iff_getElem]
  constructor
  · rintro ⟨hi, n, hn, rfl, hj⟩
    exact ⟨hi, fun j hlt => by
      simpa using hj j.val (Fin.lt_def.mp hlt |>.trans_eq (by simp))⟩
  · rintro ⟨hi, hj⟩
    exact ⟨hi, i.val, by simp, by simp, fun j hlt => by simpa using hj ⟨j, hlt.trans i.isLt⟩ hlt⟩

end Sys2Proof.Machine
end

