-- ==== Sys2Proof/Laws/Ends.lean ====
section
/-! SUPPORT. One lemma for each operation that ends a frame, gives a mark or follows a change of time: it does what
Safety.lean says of it, and nothing else. -/

namespace Sys2Proof.Machine

/-! ## Frame ends -/

theorem reportDropped_eq (items : List TxItem) (s : State) :
    reportDropped items s = { s with events := { s.events with
      records := recordsWithdrawn items s.events.records } } := by
  unfold reportDropped recordsWithdrawn
  induction items generalizing s with
  | nil => rfl
  | cons it rest ih =>
    simp only [List.foldl_cons]
    rw [ih]
    cases it.eventSeq <;> rfl

/-- Entry to WITHDRAWN (R38). -/
theorem enterWithdrawn_eq (s : State) : enterWithdrawn s = withdrawal s.line.score s := by
  unfold enterWithdrawn
  rw [reportDropped_eq]
  rfl

/-- A score taken outside WITHDRAWN (R36). -/
theorem takeScore_eq (score : Nat) (s : State) :
    takeScore score s = if 192 ≤ score then withdrawal score s else withScore score s := by
  unfold takeScore
  dsimp only
  split
  · rw [enterWithdrawn_eq]; rfl
  · rfl

/-- DUPLICATE-STATION (R34). -/
theorem duplicateStation_eq (s : State) :
    duplicateStation s =
      if s.line.standing = .withdrawn then raiseUrgent .duplicateStation (presentDate s) s
      else withdrawal 192 (raiseUrgent .duplicateStation (presentDate s)
        { s with line := { s.line with collisions := 0 } }) := by
  unfold duplicateStation
  dsimp only
  by_cases h : s.line.standing = .withdrawn
  · simp [h]; rfl
  · simp only [raiseUrgentNow_frame, h, if_false]
    rw [enterWithdrawn_eq]
    rfl

/-- The end of a good frame of a station in RUN (R33 to R36, R38). -/
theorem endGoodFrame_ends {origin : BitVec 6} {s : State} (h : s.port.station = .run) :
    GoodFrameEnds (origin == ownOrigin s) s (endGoodFrame origin s) := by
  have hr : ∀ l, inRun { s with line := l } = true := by intro l; simp [inRun, h]
  have ho : ∀ l, ownOrigin { s with line := l } = ownOrigin s := fun _ => rfl
  unfold endGoodFrame
  simp only [hr, ho, if_true]
  unfold GoodFrameEnds
  generalize hown : (origin == ownOrigin s) = own
  dsimp only
  cases own with
  | false =>
    refine ⟨fun _ hm => ?_, fun _ hm hw hs => ?_, fun _ hm hw => ⟨fun hb => ?_, fun hb => ?_⟩, by simp, by simp⟩
    · obtain ⟨st, hst⟩ := Option.ne_none_iff_exists'.mp hm
      simp [scoreGoodFrame, hst, gapBegins]
    · have hn : ¬ 192 ≤ s.line.score - 1 ∨ s.line.score = 193 := by omega
      have hlt : ¬ 192 ≤ s.line.score - 1 := by omega
      simp [scoreGoodFrame, hm, hw, gapBegins, takeScore_eq, hlt]
    · have hb' : ¬ 128 ≤ s.line.goodRun.getD 0 + 1 := by omega
      simp [scoreGoodFrame, hm, hw, gapBegins, runTowardReturn, hb']
    · simp [scoreGoodFrame, hm, hw, gapBegins, runTowardReturn, hb]
  | true =>
    refine ⟨by simp, by simp, by simp, fun _ hw => ?_, fun _ hw => ?_⟩
    · simp only [scoreGoodFrame, if_true, duplicateStation_eq, gapBegins, hw, if_false]
      rfl
    · simp only [scoreGoodFrame, if_true, duplicateStation_eq, gapBegins, hw]
      rfl

/-- What a heard frame that is bad leaves (R33, R35). -/
theorem scoreBadFrame_eq (remainder : Bool) (s : State) :
    scoreBadFrame remainder s =
      if s.line.standing = .withdrawn then { s with line := { s.line with goodRun := some 0 } }
      else if remainder then s
      else if 192 ≤ scoreUp 1 s.line.score then withdrawal (scoreUp 1 s.line.score) s
      else withScore (scoreUp 1 s.line.score) s := by
  unfold scoreBadFrame
  rw [takeScore_eq]

/-- A kind fits the start mark that a frame able to end has (R25). -/
theorem kindFits_of_canEnd {m : StartMark} {isTime : Bool} {s : State} (h : FrameCanEnd m s)
    (hm : isTime = (m == .time)) : kindFits isTime s.line = true := by
  unfold kindFits
  cases hl : s.line.leadIn with
  | none => rfl
  | some li => rcases h.2.2 li hl with hk | hk <;> subst hm <;> cases m <;> simp [hk]

/-- A whole frame that can end, in RUN (R25, R33). -/
theorem frameEnds_of_canEnd {m : StartMark} {isTime checkAgrees : Bool} {good : State → State} {s : State}
    (hr : s.port.station = .run) (h : FrameCanEnd m s) (hm : isTime = (m == .time)) :
    frameEnds isTime checkAgrees good s = if checkAgrees then good s else endBadFrame .checkDisagrees s := by
  have hrec : receiving s = true := by simp [receiving, hr, h.1, h.2.1]
  simp [frameEnds, hrec, kindFits_of_canEnd h hm]

/-- The outcome of an own frame on a transmit queue that does not hold its item (R42). -/
theorem queueAfter_of_absent {how : FrameEnd} {order : Nat} {items : List TxItem}
    (h : ∀ e ∈ items, e.order ≠ order) : queueAfter how order items = items := by
  unfold queueAfter
  induction items with
  | nil => rfl
  | cons a r ih =>
    simp only [List.filterMap_cons, h a (by simp), if_false]
    rw [ih fun e he => h e (by simp [he])]

/-- The outcome of an own frame on the transmit queue that holds its item (R42). -/
theorem queueAfter_of_held {how : FrameEnd} {before after : List TxItem} {it : TxItem}
    (h : ∀ e ∈ before ++ after, e.order ≠ it.order) :
    queueAfter how it.order (before ++ it :: after) = before ++ (itemAfter how it).toList ++ after := by
  have h1 := queueAfter_of_absent (how := how) fun e he => h e (List.mem_append_left after he)
  have h2 := queueAfter_of_absent (how := how) fun e he => h e (List.mem_append_right before he)
  unfold queueAfter at *
  rw [List.filterMap_append, h1, List.filterMap_cons, h2]
  simp only [if_true, List.append_assoc]
  cases itemAfter how it <;> simp

/-- An own frame's outcome on score, collision count and standing (R34 to R36, R38). -/
theorem scoreOwnFrame_eq (how : FrameEnd) (s : State) :
    scoreOwnFrame how s =
      let counted (n : Nat) : State := { s with line := { s.line with collisions := n } }
      let scored (score : Nat) (s : State) : State :=
        if s.line.standing = .withdrawn then s
        else if 192 ≤ score then withdrawal score s else withScore score s
      match how with
      | .lost => s
      | .completed => scored (s.line.score - 1) (counted 0)
      | .objected => scored (scoreUp 8 s.line.score) (counted 0)
      | .collided =>
        if 2 ≤ s.line.collisions then duplicateStation (counted 0)
        else scored (scoreUp 8 s.line.score) (counted (s.line.collisions + 1)) := by
  have h : 3 ≤ s.line.collisions + 1 ↔ 2 ≤ s.line.collisions := by omega
  cases how <;> simp only [scoreOwnFrame, takeScore_eq, beq_iff_eq, h]

/-! ## The own mark -/

/-- The contention and the PRESENCE due point of an own mark (R28, R51, R114). -/
theorem markInRun_contests {second : Nat} {s : State} (h : s.port.station = .run) :
    ContestsAtMark second (closeSecond s) (markInRun second s) := by
  have hr : inRun (closeSecond s) = true := by simp [inRun, h]
  unfold markInRun ContestsAtMark
  dsimp only
  generalize closeSecond s = m at hr ⊢
  refine ⟨fun hm hb => ?_, fun c hm hj => ?_, fun hn => ?_⟩
  · have hc : contends m = true := by simp [contends, hr, hm.1, hm.2]
    simp only [hc, if_true, contest, hb, and_self, setPresenceDue]
    split <;> rfl
  · have hc : contends m = true := by simp [contends, hr, hm.1, hm.2]
    obtain ⟨h1, h2, start, h3, h4⟩ := hj
    have hj' : joinCapture m = some c := by simp [joinCapture, h1, h2, h3, h4]
    simp only [hc, if_true, contest, h1, h2, hj', setPresenceDue, reduceCtorEq, false_and, if_false]
    split <;> simp [sendTime, h1]
  · have hk : (if contends m then contest m else m) = m := by
      rcases hn with hn | ⟨hb, hj⟩
      · have hc : contends m = false := by
          simp only [not_and_or] at hn
          rcases hn with hn | hn
          · simp [contends, hn]
          · simp [contends, Bool.eq_false_iff.mpr hn]
        simp [hc]
      · have hjn : joinCapture m = none := by
          unfold joinCapture
          split
          · rename_i li h1 h2 h3
            split
            · rename_i hli
              cases hcap : li.capture with
              | none => rfl
              | some c =>
                exfalso
                refine hj c ⟨h1, h3, li.start, ?_, hli.2⟩
                rw [h2]
                cases li
                simp_all
            · rfl
          · rfl
        simp [contest, hb, hjn]
    simp only [hk, setPresenceDue]
    split <;> rfl

/-- The close of an own second that does not enter HOLDOVER (R49). -/
theorem closeSecond_of_few {s : State} (h : closedCount s.agreement < 4) :
    closeSecond s = { s with agreement := { s.agreement with
      withoutSource := closedCount s.agreement, acceptedThisSecond := false } } := by
  have hn : ¬ 4 ≤ closedCount s.agreement := by omega
  unfold closeSecond
  dsimp only
  rw [if_neg hn]

/-! ## What follows a change of time -/

/-- The command of the due head runs the list (R137). -/
theorem exec_fireCommand {s : State} {d : Deadline} (hr : s.port.station = .run) (h : dueDeadline s = some d) :
    exec (fireCommand d.kind) s = .next (runDeadlines s) := by
  have hf : fireDue d.kind s = true := by simp [fireDue, h, inRun, hr]
  cases hk : d.kind <;> rw [hk] at hf <;> simp [fireCommand, exec, execOpenFire, execMissFire, hf]

/-- Which item is due is told by the list, by centre time and by the time state (R137, R141). -/
theorem dueDeadline_congr {s t : State} (h1 : t.checker = s.checker) (h2 : t.time = s.time)
    (h3 : t.agreement = s.agreement) : dueDeadline t = dueDeadline s := by
  unfold dueDeadline deadlinesPaused
  rw [h1, h2, h3]

theorem refreshSuspension_clocks (s : State) (k : Fin 4) :
    (refreshSuspension s).clocks[k] = suspendLine (suspendingCause s.agreement.timeState s.supply) s.clocks[k] := by
  simp [refreshSuspension]

theorem suspendingCause_iff (ts : TimeState) (v : Supply) :
    suspendingCause ts v = true ↔ v = .reduced ∨ ts = .notStarted ∨ ts = .acquiring := by
  unfold suspendingCause
  simp only [Bool.or_eq_true, beq_iff_eq]
  tauto

/-- What follows a change of centre time or of time state (R137, R141, R173, R176). -/
theorem followTime_follows (mid : State) : FollowsTime mid (followTime mid) := by
  unfold FollowsTime
  dsimp only
  have hch : (followTime mid).checker = (runDeadlines mid).checker := by simp [followTime]
  have hre : (followTime mid).report = (runDeadlines mid).report := by simp [followTime]
  refine ⟨?_, ?_, fun h => ?_, fun hr d hd => ?_, ?_⟩
  · have hf := followTime_frame mid
    generalize followTime mid = t at hf
    obtain ⟨⟩ := t
    obtain ⟨⟩ := mid
    simp_all
  · rw [dueDeadline_congr (s := runDeadlines mid) (by simp [followTime]) (by simp [followTime])
      (by simp [followTime])]
    exact dueDeadline_runDeadlines mid
  · rw [hch, hre, runDeadlines_of_none h]
    exact ⟨rfl, rfl⟩
  · exact ⟨_, exec_fireCommand hr hd, hch, hre⟩
  · have hc : (refreshSuspension (runDeadlines mid)).clocks = (refreshSuspension mid).clocks := by
      simp [refreshSuspension]
    refine ⟨refreshSuspension mid, by simp [refreshSuspension], fun k => ?_, fun k hk => ?_, fun k hk => ?_,
      fun k => ?_⟩
    · rw [refreshSuspension_clocks]
      generalize mid.clocks[k] = l
      unfold suspendLine
      split <;> rfl
    · rw [refreshSuspension_clocks, suspendLine_state, (suspendingCause_iff _ _).mpr hk]
      simp
    · have hk' : suspendingCause mid.agreement.timeState mid.supply = false :=
        Bool.eq_false_iff.mpr fun h => hk ((suspendingCause_iff _ _).mp h)
      rw [refreshSuspension_clocks, suspendLine_state, hk']
      simp
    · refine ⟨_, rfl, ?_⟩
      simp only [followTime, decideLines_clocks, decideLine_clocks, if_true]
      unfold decidedLine pulseDue inRun
      rw [hc]
      simp

/-- Without a step, or without a mark that waits, no mark is given before the offset (R20). -/
theorem markBeforeStep_of_none {d : Int} {s : State}
    (h : (disciplineTime d s.agreement.timeState s.time).1 ≠ .step ∨ s.time.markDue = none) :
    markBeforeStep d s = s := by
  unfold markBeforeStep
  split
  · rename_i hs
    have hm : s.time.markDue = none := h.resolve_left fun hn => hn hs
    simp [takeMark, hm]
  · rfl

/-- An offset with all that follows it (R12, R19, R20, R54, R66). -/
theorem giveOffset_taken (kind : SourceKind) (grade : Nat) (d : Int) (s : State) :
    OffsetTaken kind grade d s (giveOffset kind grade d (markBeforeStep d s)) := by
  unfold OffsetTaken
  dsimp only
  refine ⟨markBeforeStep d s, fun h => markBeforeStep_of_none h, fun h hm => ?_, ?_⟩
  · simp [markBeforeStep, h, exec, execSecondMark]
  · have hd : (discipline d (markBeforeStep d s)).2.agreement = (markBeforeStep d s).agreement := by simp
    unfold giveOffset
    dsimp only
    rw [hd]
    exact followTime_follows _

/-- Such an offset on the time base and the agreement controller (R54, R66). -/
theorem giveOffset_of_none {kind : SourceKind} {grade : Nat} {d : Int} {s : State}
    (h : (disciplineTime d s.agreement.timeState s.time).1 ≠ .step ∨ s.time.markDue = none) :
    (giveOffset kind grade d (markBeforeStep d s)).time = (disciplineTime d s.agreement.timeState s.time).2 ∧
    (giveOffset kind grade d (markBeforeStep d s)).agreement =
      takeOutcome s.time.elapsed kind grade (disciplineTime d s.agreement.timeState s.time).1 s.agreement ∧
    (giveOffset kind grade d (markBeforeStep d s)).line = s.line := by
  rw [markBeforeStep_of_none h]
  exact ⟨(giveOffset_time _ _ _ _).1, (giveOffset_time _ _ _ _).2, by simp⟩

/-- No item is left due after an offset (R137, R141). -/
theorem dueDeadline_giveOffset (kind : SourceKind) (grade : Nat) (d : Int) (s : State) :
    dueDeadline (giveOffset kind grade d s) = none := by
  unfold giveOffset
  exact (followTime_follows _).2.1

end Sys2Proof.Machine
end

