-- ==== Sys2Proof/Laws/Octets.lean ====
section
/-! SUPPORT. Numbers in octets, written and read back (R197 to R199): a field of a concatenation is a field of the part
that holds it, and a number written in `n` octets reads back modulo `256 ^ n`. -/

namespace Sys2Proof.Machine

@[simp] theorem octet_toNat (v : Nat) : (octet v).toNat = v % 256 := BitVec.toNat_ofNat v 8

@[simp] theorem beOctets_length (n v : Nat) : (beOctets n v).length = n := by simp [beOctets]

@[simp] theorem dateOctets_length (d : Date) : (dateOctets d).length = 7 := by simp [dateOctets]

@[simp] theorem epochDateOctets_length (d : DatedEpoch) : (epochDateOctets d).length = 8 := by simp [epochDateOctets]

/-! ## Fields of a concatenation -/

theorem field_append_left {a b : List Octet} {i n : Nat} (h : i + n ≤ a.length) :
    field (a ++ b) i n = field a i n := by
  unfold field
  rw [List.drop_append_of_le_length (by omega), List.take_append_of_le_length (by simp; omega)]

theorem field_append_right {a b : List Octet} {i n : Nat} (h : a.length ≤ i) :
    field (a ++ b) i n = field b (i - a.length) n := by
  unfold field
  rw [List.drop_append, List.drop_eq_nil_of_le h, List.nil_append]

@[simp] theorem field_cons_zero (o : Octet) (l : List Octet) : field (o :: l) 0 1 = o.toNat := by
  simp [field, beNumber]

theorem field_cons_pos {o : Octet} {l : List Octet} {i n : Nat} (h : 0 < i) :
    field (o :: l) i n = field l (i - 1) n := by
  obtain ⟨i, rfl⟩ := Nat.exists_eq_succ_of_ne_zero h.ne'
  simp [field]

@[simp] theorem field_replicate (m i n : Nat) : field (List.replicate m 0#8) i n = 0 := by
  unfold field beNumber
  rw [List.drop_replicate, List.take_replicate]
  generalize min n (m - i) = k
  induction k with
  | zero => rfl
  | succ k ih => simpa [List.replicate_succ] using ih

@[simp] theorem field_nil (i n : Nat) : field [] i n = 0 := by simpa using field_replicate 0 i n

/-! ## Numbers and dates -/

theorem beNumber_append (l : List Octet) (o : Octet) : beNumber (l ++ [o]) = beNumber l * 256 + o.toNat := by
  simp [beNumber]

theorem beOctets_succ (n v : Nat) : beOctets (n + 1) v = beOctets n (v / 256) ++ [octet v] := by
  simp only [beOctets, octet, List.range_succ, List.map_append, List.map_cons, List.map_nil]
  congr 1
  · refine List.map_congr_left fun k hk => ?_
    have hk : k < n := List.mem_range.mp hk
    rw [Nat.div_div_eq_div_mul, ← Nat.pow_succ', show (n - 1 - k).succ = n + 1 - 1 - k by omega]
  · simp

theorem beNumber_beOctets (n v : Nat) : beNumber (beOctets n v) = v % 256 ^ n := by
  induction n generalizing v with
  | zero => rw [Nat.pow_zero, Nat.mod_one]; rfl
  | succ n ih =>
    rw [beOctets_succ, beNumber_append, ih, octet_toNat, Nat.pow_succ', Nat.mod_mul, Nat.mul_comm, Nat.add_comm]

@[simp] theorem field_beOctets (n v : Nat) : field (beOctets n v) 0 n = v % 256 ^ n := by
  unfold field
  rw [List.drop_zero, List.take_of_length_le (by simp), beNumber_beOctets]

@[simp] theorem dateAt_dateOctets (d : Date) : DateAt (dateOctets d) 0 d := by
  simp (disch := simp) [DateAt, dateOctets, field_append_left, field_append_right]

theorem dateAt_append_left {a b : List Octet} {i : Nat} {d : Date} (h : i + 7 ≤ a.length) :
    DateAt (a ++ b) i d ↔ DateAt a i d := by
  unfold DateAt
  rw [field_append_left (by omega), field_append_left (by omega)]

theorem dateAt_append_right {a b : List Octet} {i : Nat} {d : Date} (h : a.length ≤ i) :
    DateAt (a ++ b) i d ↔ DateAt b (i - a.length) d := by
  unfold DateAt
  rw [field_append_right h, field_append_right (by omega), show i + 2 - a.length = i - a.length + 2 by omega]

theorem dateAt_cons {o : Octet} {l : List Octet} {i : Nat} {d : Date} (h : 0 < i) :
    DateAt (o :: l) i d ↔ DateAt l (i - 1) d :=
  dateAt_append_right (a := [o]) h

/-! ## Octets that are 0 -/

theorem zerosFrom_append_left {a b : List Octet} {i j : Nat} (h : j ≤ a.length) :
    ZerosFrom (a ++ b) i j ↔ ZerosFrom a i j := by
  refine forall_congr' fun n => imp_congr_right fun _ => ⟨fun hz h2 => ?_, fun hz h2 => ?_⟩
  · rw [← field_append_left (b := b) (by omega)]
    exact hz h2
  · rw [field_append_left (by omega)]
    exact hz h2

theorem zerosFrom_append {a b : List Octet} {i j : Nat} (h : a.length ≤ i) :
    ZerosFrom (a ++ b) i j ↔ ZerosFrom b (i - a.length) (j - a.length) := by
  constructor
  · intro hz n h1 h2
    have := hz (n + a.length) (by omega) (by omega)
    rwa [field_append_right (by omega), Nat.add_sub_cancel] at this
  · intro hz n h1 h2
    rw [field_append_right (by omega)]
    exact hz _ (by omega) (by omega)

theorem zerosFrom_cons {o : Octet} {l : List Octet} {i j : Nat} (h : 0 < i) :
    ZerosFrom (o :: l) i j ↔ ZerosFrom l (i - 1) (j - 1) :=
  zerosFrom_append (a := [o]) h

@[simp] theorem zerosFrom_replicate (m i j : Nat) : ZerosFrom (List.replicate m 0#8) i j :=
  fun n _ _ => field_replicate m n 1

end Sys2Proof.Machine
end

