-- ==== Sys2Proof/Laws/Port.lean ====
section
/-! SUPPORT. What a select period does, case by case (R186 to R188), the exchange it leaves behind, and when an item of the
image fails the validation of START (R191). -/

namespace Sys2Proof.Machine

@[simp] theorem clockOutAnswer_station (n : Nat) (s : State) :
    (clockOutAnswer n s).port.station = s.port.station ∧ (clockOutAnswer n s).port.image = s.port.image ∧
    (clockOutAnswer n s).port.answer = none := by simp [clockOutAnswer]

@[simp] theorem holdAnswer_port (a : List Octet) (s : State) :
    (holdAnswer a s).port = { s.port with answer := some a } := rfl

/-- What a refused command holds, and that nothing but the exchange changes. -/
theorem answered_refuse (r : RefusalCode) (n : Nat) (s : State) :
    let t := answered (refuse r (clockOutAnswer n s))
    t.port.answer = some (refusedWith r) ∧ t = portExchange s t := ⟨rfl, rfl⟩

/-- The same of a command answered DONE that changes nothing. -/
theorem answered_done (a : List Octet) (n : Nat) (s : State) :
    let t := answered (done a (clockOutAnswer n s))
    t.port.answer = some (doneWith a) ∧ t = portExchange s t := ⟨rfl, rfl⟩

theorem periodDiscarded_eq_false {early : Bool} {s : State} (he : early = false)
    (hs : s.port.station ≠ .notQualified) : periodDiscarded early s = false := by
  simp [periodDiscarded, he, hs]

theorem selectCommand_discarded {early : Bool} {n : Nat} {wellFormed taken : Bool} {command : State → CommandEffect}
    {s : State} (h : s.port.station = .notQualified ∨ early = true) :
    selectCommand early n wellFormed taken command s = discardPeriod n s := by
  have hd : periodDiscarded early s = true := by
    rcases h with h | h <;> simp [periodDiscarded, h]
  simp [selectCommand, hd]

theorem selectCommand_full {n : Nat} {wellFormed taken : Bool} {command : State → CommandEffect} {s : State}
    (hs : s.port.station ≠ .notQualified) (hn : 72 < n) :
    selectCommand false n wellFormed taken command s = answered (refuse .full (clockOutAnswer n s)) := by
  simp [selectCommand, periodDiscarded_eq_false rfl hs, hn]

theorem selectCommand_range {n : Nat} {wellFormed taken : Bool} {command : State → CommandEffect} {s : State}
    (hs : s.port.station ≠ .notQualified) (hn : n ≤ 72) (hw : wellFormed = false) :
    selectCommand false n wellFormed taken command s = answered (refuse .range (clockOutAnswer n s)) := by
  simp [selectCommand, periodDiscarded_eq_false rfl hs, Nat.not_lt.mpr hn, hw]

theorem selectCommand_state {n : Nat} {wellFormed taken : Bool} {command : State → CommandEffect} {s : State}
    (hs : s.port.station ≠ .notQualified) (hn : n ≤ 72) (hw : wellFormed = true) (ht : taken = false) :
    selectCommand false n wellFormed taken command s = answered (refuse .state (clockOutAnswer n s)) := by
  simp [selectCommand, periodDiscarded_eq_false rfl hs, Nat.not_lt.mpr hn, hw, ht]

theorem selectCommand_taken {n : Nat} {wellFormed taken : Bool} {command : State → CommandEffect} {s : State}
    (hs : s.port.station ≠ .notQualified) (hn : n ≤ 72) (hw : wellFormed = true) (ht : taken = true) :
    selectCommand false n wellFormed taken command s = answered (command (clockOutAnswer n s)) := by
  simp [selectCommand, periodDiscarded_eq_false rfl hs, Nat.not_lt.mpr hn, hw, ht]

/-- A command of RUN with its parameter octets, in RUN. -/
theorem hostCommand_inRun {params : List Octet} {count : Nat} {command : State → CommandEffect} {s : State}
    (hs : s.port.station = .run) (hl : params.length = count) (hc : count ≤ 71) :
    hostCommand { params := params, early := false } count (inRun s) command s =
      answered (command (clockOutAnswer (params.length + 1) s)) := by
  apply selectCommand_taken
  · simp [hs]
  · simp only [hl]; omega
  · simp [hl]
  · simp [inRun, hs]

/-- Whatever a command's meaning leaves of the queue of commands, a select period leaves it too. -/
theorem selectCommand_pending {early : Bool} {n : Nat} {wellFormed taken : Bool} {command : State → CommandEffect}
    (hc : ∀ s, (command s).1.pending = s.pending) (s : State) :
    (selectCommand early n wellFormed taken command s).pending = s.pending := by
  unfold selectCommand
  dsimp only
  repeat' split
  all_goals simp [answered, refuse, hc]

/-! ## The validation of START (R191) -/

@[simp] theorem lineNames_some (t : Fin 40) (c : ClockConfig) : lineNames t (some c) = true ↔ LineNames c t := by
  simp only [lineNames, LineNames, Bool.or_eq_true, beq_iff_eq, eq_comm (a := t), or_assoc]

@[simp] theorem lineNames_none (t : Fin 40) : lineNames t none = false := rfl

theorem isInput_eq_false_iff (v : Terminal) :
    isInput v = false ↔ ∀ settle cls priority, v ≠ .input settle cls priority := by
  cases v <;> simp [isInput]

theorem terminalFails_iff (img : Image) (t : Fin 40) : terminalFails img t = true ↔ TerminalFails img t := by
  have hn : (!img.lines.toList.any (lineNames t)) = true ↔
      ∀ (k : Fin 4) (c : ClockConfig), img.lines[k] = some c → ¬ LineNames c t := by
    simp only [Bool.not_eq_true', List.any_eq_false]
    constructor
    · intro h k c hk hc
      exact h img.lines[k] (by simp) (by rw [hk]; simpa using hc)
    · intro h x hx hl
      obtain ⟨k, hk, rfl⟩ := Vector.mem_iff_getElem.mp (by simpa using hx)
      cases hc : img.lines[k] with
      | none => simp [hc] at hl
      | some c => exact h ⟨k, hk⟩ c hc (by simpa [hc] using hl)
  unfold terminalFails TerminalFails
  rw [← hn]
  split <;> simp_all

theorem pairFails_iff (img : Image) (k : Fin 8) : pairFails img k = true ↔ PairFails img k := by
  unfold pairFails PairFails
  split <;> simp_all [isInput_eq_false_iff]

theorem lineFails_iff (img : Image) (k : Fin 4) : lineFails img k = true ↔ LineFails img k := by
  have hb (t : Fin 40) : namedBelow img k t = true ↔
      ∃ (j : Fin 4) (lower : ClockConfig), j < k ∧ img.lines[j] = some lower ∧ LineNames lower t := by
    simp only [namedBelow, List.any_eq_true, List.mem_finRange, true_and, Bool.and_eq_true, decide_eq_true_eq]
    refine exists_congr fun j => ?_
    cases img.lines[j] <;> simp
  unfold lineFails LineFails
  split
  · next c hc =>
    simp only [hc, Option.some.injEq, exists_eq_left', Bool.or_eq_true, decide_eq_true_eq, hb, or_assoc]
    have : (∃ (j : Fin 4) (lower : ClockConfig) (t : Fin 40), j < k ∧ img.lines[j] = some lower ∧ LineNames lower t ∧
        LineNames c t) ↔
        (∃ (j : Fin 4) (lower : ClockConfig), j < k ∧ img.lines[j] = some lower ∧ LineNames lower c.driveA) ∨
        (∃ (j : Fin 4) (lower : ClockConfig), j < k ∧ img.lines[j] = some lower ∧ LineNames lower c.driveB) ∨
        (∃ (j : Fin 4) (lower : ClockConfig), j < k ∧ img.lines[j] = some lower ∧ LineNames lower c.proving) := by
      constructor
      · rintro ⟨j, lower, t, hj, hl, ht, rfl | rfl | rfl⟩
        exacts [.inl ⟨j, lower, hj, hl, ht⟩, .inr (.inl ⟨j, lower, hj, hl, ht⟩), .inr (.inr ⟨j, lower, hj, hl, ht⟩)]
      · rintro (⟨j, lower, hj, hl, ht⟩ | ⟨j, lower, hj, hl, ht⟩ | ⟨j, lower, hj, hl, ht⟩)
        exacts [⟨j, lower, _, hj, hl, ht, .inl rfl⟩, ⟨j, lower, _, hj, hl, ht, .inr (.inl rfl)⟩,
          ⟨j, lower, _, hj, hl, ht, .inr (.inr rfl)⟩]
    rw [this]
    simp only [or_assoc]
  · next hc => simp [hc]

/-- The image has no bad item exactly when no item fails. -/
theorem badItem_eq_none_iff (img : Image) : badItem img = none ↔ ImagePasses img := by
  unfold badItem ImagePasses
  simp only [← terminalFails_iff, ← pairFails_iff, ← lineFails_iff]
  split
  · next t ht => simpa using fun h => absurd (List.find?_some ht) (by simp [h t])
  · next ht =>
    have ht : ∀ t, terminalFails img t = false := by simpa using ht
    split
    · next k hk => simpa using fun _ h => absurd (List.find?_some hk) (by simp [h k])
    · next hk =>
      have hk : ∀ k, pairFails img k = false := by simpa using hk
      simp [ht, hk]

/-- The first place of a table that passes a test. -/
theorem find?_finRange_eq_some {n : Nat} {p : Fin n → Bool} {k : Fin n} (hk : p k = true)
    (h : ∀ j < k, p j = false) : (List.finRange n).find? p = some k := by
  rw [List.find?_eq_some_iff_getElem]
  exact ⟨hk, k.val, by simp, by simp, fun j hj => by simpa using h ⟨j, hj.trans k.isLt⟩ hj⟩

/-- The bad item is of class 7 when a terminal fails, and names the first that does. -/
theorem badItem_of_terminalFails {img : Image} {t : Fin 40} (ht : TerminalFails img t)
    (hlt : ∀ u < t, ¬ TerminalFails img u) : badItem img = some (7, t.val) := by
  have := find?_finRange_eq_some (p := terminalFails img) ((terminalFails_iff img t).mpr ht)
    fun u hu => by simpa using mt (terminalFails_iff img u).mp (hlt u hu)
  simp [badItem, this]

/-- The bad item is of class 8 when no terminal fails and a pair does, and names the first that does. -/
theorem badItem_of_pairFails {img : Image} {k : Fin 8} (ht : ∀ t, ¬ TerminalFails img t) (hk : PairFails img k)
    (hlt : ∀ j < k, ¬ PairFails img j) : badItem img = some (8, k.val + 1) := by
  have h7 : (List.finRange 40).find? (terminalFails img) = none := by
    simpa using fun t => by simpa using mt (terminalFails_iff img t).mp (ht t)
  have := find?_finRange_eq_some (p := pairFails img) ((pairFails_iff img k).mpr hk)
    fun j hj => by simpa using mt (pairFails_iff img j).mp (hlt j hj)
  simp [badItem, h7, this]

/-- The bad item is of class 9 when no terminal and no pair fails and a line does, and names the first that does. -/
theorem badItem_of_lineFails {img : Image} {k : Fin 4} (ht : ∀ t, ¬ TerminalFails img t)
    (hp : ∀ j, ¬ PairFails img j) (hk : LineFails img k) (hlt : ∀ j < k, ¬ LineFails img j) :
    badItem img = some (9, k.val + 1) := by
  have h7 : (List.finRange 40).find? (terminalFails img) = none := by
    simpa using fun t => by simpa using mt (terminalFails_iff img t).mp (ht t)
  have h8 : (List.finRange 8).find? (pairFails img) = none := by
    simpa using fun j => by simpa using mt (pairFails_iff img j).mp (hp j)
  have := find?_finRange_eq_some (p := lineFails img) ((lineFails_iff img k).mpr hk)
    fun j hj => by simpa using mt (lineFails_iff img j).mp (hlt j hj)
  simp [badItem, h7, h8, this]

end Sys2Proof.Machine
end

