-- ==== Sys2Proof/WellFormed.lean ====
section
/-! DEFINITION. When a command is one that the block can be sent: the event its row names, and no other row's. -/

namespace Sys2Proof

/-- The octets of a select period that its row may carry: code and parameters together at most 72 (R187: more are
refused by form, which is the row UNKNOWN_COMMAND). -/
def SelectPeriod.fits (p : SelectPeriod) : Bool := decide (p.params.length + 1 ≤ 72)

/-- A well-formed command. A received frame's check agrees (R33), a host command fits one select period (R187), and
an UNKNOWN_COMMAND names no command; every other operand is held in range by its type. -/
def Instr.WellFormed : Instr → Bool
  | .powerOn | .qualificationEnd | .secondMark | .correctionSecondEnd | .holdoverEntry | .presenceDue
  | .beginReadyFrame | .frameOutcome _ | .receiveBadFrame _ | .silenceExpiry _ | .silenceTimerExpiry
  | .holdoverAging | .referencePulse | .referenceLoss | .edge _ _ | .settleExpiry _ | .limitExpiry _
  | .openFire | .missFire | .supplyChange _ | .stepBoundary _ | .pulseStart _ | .pulseEnd _
  | .dominantLeadIn _ | .lineIdle | .answerOnlySelectPeriod _ _ => true
  | .receiveTimeFrame f => Machine.timeFrameGood f
  | .receiveNotice f => Machine.noticeFrameGood f
  | .receivePresence f => Machine.presenceFrameGood f
  | .unknownCommand octets _ => namesNoCommand octets
  | .configure p | .start p | .restart p | .readStatus p | .takeEvents p | .peekEvent p | .takeDeviation p
  | .loadEntry p | .cancelEntry p | .readEntry p | .readHeard p | .clearUrgent p | .setTime p | .setDial p => p.fits

end Sys2Proof
end

