-- ==== Sys2Proof/Tests/Slice0.lean ====
section
/-! SUPPORT. Tests: what WellFormed refuses, the manual's worked examples one step at a time, and one witness theorem
for the hypotheses of each statement that has some. Expected values come from the tables of spec/ named above each
test. -/

namespace Sys2Proof.Tests

open Sys2Proof.Machine

/- One test after another: the kernel checks of many concrete states side by side would hold one thread each. -/
set_option Elab.async false

/-! ## The states that the tests start from -/

/-- The state after a command. -/
def after (c : Instr) (s : State) : State :=
  match exec c s with
  | .next t => t
  | .fault _ | .refused _ => s

/-- The state after a step. -/
def stepped (s : State) : State :=
  match step s with
  | .next t => t
  | .fault _ | .refused _ => s

/-- A time of day in microseconds. -/
def clock (hour minute second us : Nat) : Nat := ((hour * 60 + minute) * 60 + second) * 1000000 + us

/-- Station 9 of the manual's examples: qualified, in RUN, AGREED at grade 3 in epoch 12, its line idle. -/
def station9 : State :=
  { State.reset with
    time := { timeBasePowerOn with
      qualified := true, elapsed := 50000000, date := { day := 21, us := clock 21 16 5 400000 }, epoch := 12
      correction := some { total := 0, index := 1 } }
    agreement := { agreementReset with timeState := .agreed, grade := 3, sourceGrade := some 2 }
    line := { linePowerOn with condition := .idle }
    port := { servicePortPowerOn with station := .run, image := { imageDefault with station := 9 } } }

/-- The same station in CONFIG, as RESTART leaves it: NOT STARTED, its queues empty. -/
def inConfig9 : State :=
  { station9 with agreement := agreementReset, port := { station9.port with station := .config } }

/-- `station9` with another image, in the examples that configure something. -/
def withImage (f : Image → Image) (s : State) : State := { s with port := { s.port with image := f s.port.image } }

/-- `station9` in ACQUIRING. -/
def acquiring9 : State :=
  { station9 with agreement := { agreementReset with
      timeState := .acquiring, phase := some .searching, silenceTimer := some 50000000 } }

/-- A select period of these octets after the command code. -/
def period (params : List Octet) : SelectPeriod := { params := params, early := false }

/-- The answer held after a host command. -/
def answerTo (c : Instr) (s : State) : Option (List Octet) := (after c s).port.answer

/-! ## WellFormed refuses -/

def timeBody9 : TimeBody := { day := 21, us := 0, epoch := 12, timeState := 3 }
def noticeBody9 : NoticeBody := { channel := 7, newState := true, seq := 41, day := 21, us := 0, epoch := 12, timeState := 3 }
def presenceBody9 : PresenceBody := { timeState := 3, grade := 3, epoch := 12, lastSeq := 44, standing := 0 }

theorem test_wellFormed_frames_with_their_checks :
    Instr.WellFormed (.receiveTimeFrame (sealTime 2 4 timeBody9)) = true ∧
    Instr.WellFormed (.receiveNotice (sealNotice false 2 4 noticeBody9)) = true ∧
    Instr.WellFormed (.receivePresence (sealPresence 0 4 presenceBody9)) = true := by decide +kernel

theorem test_wellFormed_refuses_a_wrong_time_check :
    Instr.WellFormed (.receiveTimeFrame { sealTime 2 4 timeBody9 with rank := 3 }) = false := by decide +kernel

theorem test_wellFormed_refuses_a_wrong_notice_check :
    Instr.WellFormed (.receiveNotice { sealNotice false 2 4 noticeBody9 with urgent := true }) = false := by
  decide +kernel

theorem test_wellFormed_refuses_a_wrong_presence_check :
    Instr.WellFormed (.receivePresence { sealPresence 0 4 presenceBody9 with origin := 5 }) = false := by
  decide +kernel

/-- A code of the table names a command; code 0 and codes from 15 do not (R188). -/
theorem test_wellFormed_refuses_an_unknown_command_that_names_one :
    Instr.WellFormed (.unknownCommand [14] false) = false ∧ Instr.WellFormed (.unknownCommand [15] false) = true ∧
    Instr.WellFormed (.unknownCommand [0] false) = true := by decide +kernel

/-- 72 octets are a command, 73 are not (R187). -/
theorem test_wellFormed_refuses_73_octets :
    ((portRows.map (·.make) ++ [Instr.configure]).all fun make =>
      (make (period (List.replicate 71 0))).WellFormed && !(make (period (List.replicate 72 0))).WellFormed) = true := by
  decide +kernel

/-! ## Chapter 1: the worked cases of section 1.6 -/

/-- Section 1.6, the discipline case: F = −1 200 and d = +37 give F = −904 and K = 1 464, a good second. -/
theorem test_discipline_case :
    let r := disciplineTime 37 .agreed { station9.time with trim := -1200 }
    r.1 = .slew true ∧ r.2.trim = -904 ∧ r.2.slew = 37 ∧ r.2.correction = some { total := 1464, index := 1 } := by
  decide +kernel

/-- Section 1.6, the frame of that case: T = …412, C = …380, L = 5, and the offset is +37. -/
theorem test_received_time_frame_slews :
    let image (i : Image) : Image := { i with lineDelay := 5 }
    let capture : Stamp := { date := { day := 4, us := clock 8 15 31 380 }, epoch := 12, timeState := .agreed }
    let s := withImage image { station9 with
      time := { station9.time with trim := -1200 }
      line := { station9.line with condition := .frame
                                   leadIn := some { mark := some .time, start := 49999000, capture := some capture } } }
    let us : BitVec 37 := BitVec.ofNat 37 (clock 8 15 31 412)
    let t := after (.receiveTimeFrame (sealTime 2 4 { timeBody9 with day := 4, us := us })) s
    t.time.trim = -904 ∧ t.agreement.grade = 3 ∧ t.agreement.lineGood = 1 ∧ t.line.condition = .gap := by
  decide +kernel

/-- Section 1.6, a negative slew outside the settling band: K = −8 240, not a good second. -/
theorem test_discipline_outside_the_settling_band :
    let r := disciplineTime (-120) .agreed { station9.time with trim := 400 }
    r.1 = .slew false ∧ r.2.trim = -560 ∧ r.2.correction = some { total := -8240, index := 1 } := by decide +kernel

/-- Section 1.6: the trim at its limit, and the greatest correction. -/
theorem test_discipline_clamps_the_trim :
    (disciplineTime 30 .agreed { station9.time with trim := 12700 }).2.correction =
      some { total := 14720, index := 1 } ∧
    (disciplineTime (-500) .agreed { station9.time with trim := -12800 }).2.correction =
      some { total := -44800, index := 1 } := by decide +kernel

/-- Section 1.6: +2 000, +1 980 and +1 960 are two outliers and a step of +1 960 into epoch 10. -/
theorem test_three_outliers_step :
    let t0 := { station9.time with epoch := 9 }
    let r1 := disciplineTime 2000 .agreed t0
    let r2 := disciplineTime 1980 .agreed r1.2
    let r3 := disciplineTime 1960 .agreed r2.2
    r1.1 = .outlier ∧ r2.2.outliers = [2000, 1980] ∧ r3.1 = .step ∧ r3.2.epoch = 10 ∧
      r3.2.date.us = t0.date.us + 1960 := by decide +kernel

/-- Section 1.6, a step across midnight in ACQUIRING: centre time 13:00:00:00.001 185, epoch 8, and no raising. -/
theorem test_step_across_midnight :
    let s := { acquiring9 with time := { acquiring9.time with epoch := 7, date := { day := 13, us := 80 } } }
    let t := (discipline 1105 s).2
    t.time.date = { day := 13, us := 1185 } ∧ t.time.epoch = 8 ∧ t.report.attention = false ∧
      t.events.records.map (·.body) = [.timeStep { day := 13, us := 80 } { day := 13, us := 1185 }] := by
  decide +kernel

/-- Section 1.6, an offset across the day-number wrap: T lies 20 µs after C. -/
theorem test_date_difference_wraps :
    dateDiff { day := 0, us := 10 } { day := 65535, us := clock 23 59 59 999990 } = 20 := by decide +kernel

/-- Section 1.3: the first extra sixty-fourth of K = 1 464 falls at i = 684. -/
theorem test_first_share_of_a_correction :
    correctionShare 1464 683 = 0 ∧ correctionShare 1464 684 = 1 ∧ correctionShare (-1464) 684 = -1 := by decide +kernel

/-- R1 and R10: the correction second that begins as qualification ends; R9: the one after it. -/
theorem test_qualification_and_correction_second :
    let s := after .qualificationEnd { State.reset with time := { timeBasePowerOn with elapsed := 4000 } }
    let late := { s with time := { s.time with slew := 37, trim := -904, correction := some { total := 1464, index := 1000001 } } }
    s.port.station = .config ∧ s.time.correction = some { total := 0, index := 1 } ∧
      (after .correctionSecondEnd late).time.correction = some { total := -904, index := 1 } := by decide +kernel

/-- R2, R4, R6: the idle station's microsecond, at the last of a second. -/
theorem test_idle_microsecond_gives_the_second_mark :
    let s := { station9 with time := { station9.time with date := { day := 65535, us := clock 23 59 59 999999 } } }
    (stepped s).time.elapsed = 50000001 ∧ (stepped s).time.date = { day := 0, us := 0 } ∧
      (stepped s).time.markDue = some 0 := by decide +kernel

/-- R21: POWER_ON from a running station leaves NOT-QUALIFIED and an elapsed count of 0. -/
theorem test_power_on : (after .powerOn station9).port.station = .notQualified ∧
    (after .powerOn station9).time.elapsed = 0 := by decide +kernel

/-! ## Chapters 2, 3 and 7: the dating line and the time state -/

/-- R196: the check value that the CRC of that polynomial and start gives for the nine digits "123456789". -/
theorem test_crc_check_value :
    crc16 (([0x31, 0x32, 0x33, 0x34, 0x35, 0x36, 0x37, 0x38, 0x39] : List (BitVec 8)).flatMap msbBits) = 0x29B1#16 := by
  decide +kernel

/-- Section 3.6: the headers of stations 4 and 9 at grade 1 and 2 are 00 0001 001001 and 00 0010 000100. -/
theorem test_header_bits :
    headerBits 0#2 1#4 9#6 =
      [false, false, false, false, false, true, false, false, true, false, false, true] ∧
    headerBits 0#2 2#4 4#6 =
      [false, false, false, false, true, false, false, false, false, true, false, false] := by decide +kernel

/-- Section 3.6, the contest of 10:00:03: station 9 in HOLDOVER at grade 2 with F = −320 takes +5 and is AGREED at 3. -/
theorem test_holdover_ends_with_an_accepted_offset :
    let capture : Stamp := { date := { day := 21, us := clock 10 0 2 999998 }, epoch := 12, timeState := .holdover }
    let s := withImage (fun i => { i with lineDelay := 3 }) { station9 with
      time := { station9.time with trim := -320 }
      agreement := { agreementReset with
        timeState := .holdover, grade := 2, holdover := some { grade := 1, elapsed := 49999735 } }
      line := { station9.line with condition := .frame
                                   leadIn := some { mark := some .time, start := 49999748, capture := some capture } } }
    let body : TimeBody := { timeBody9 with us := BitVec.ofNat 37 (clock 10 0 3 0) }
    let t := after (.receiveTimeFrame (sealTime 2 4 body)) s
    t.agreement.timeState = .agreed ∧ t.agreement.grade = 3 ∧ t.time.trim = -280 ∧ t.agreement.lineGood = 1 := by
  decide +kernel

/-- Section 3.6, the marks of station 4: 3 seconds without a source become HOLDOVER at grade 3 at the next mark. -/
theorem test_fourth_second_without_a_source :
    let s := { station9 with time := { station9.time with markDue := some 7 }
                             agreement := { station9.agreement with grade := 2, sourceGrade := some 1, withoutSource := 3 } }
    let t := after .holdoverEntry s
    t.agreement.timeState = .holdover ∧ t.agreement.grade = 3 ∧ t.time.markDue = none ∧ t.line.condition = .frame ∧
      (t.report.urgent[urgentIndex .timeDegraded]).flag = true ∧
      (after .secondMark { s with agreement := { s.agreement with withoutSource := 2 } }).agreement.withoutSource = 3 := by
  decide +kernel

/-- Section 3.6: an entry at grade 2 ages to 4 at 16 s of elapsed count and reaches 13 at 160 s, not before. -/
theorem test_holdover_ageing :
    let s (span : Nat) := { station9 with agreement := { agreementReset with
      timeState := .holdover, grade := 3, holdover := some { grade := 2, elapsed := 50000000 - usSpan span } } }
    (after .holdoverAging (s 15999999)).agreement.grade = 3 ∧ (after .holdoverAging (s 16000000)).agreement.grade = 4 ∧
      (after .holdoverAging (s 160000000)).agreement.grade = 13 := by decide +kernel

/-- Section 3.6, the loss: 3 000 000 µs after the last pulse a REFERENCED station enters HOLDOVER at grade 2. -/
theorem test_reference_loss :
    let arming : Arming :=
      { armedDate := { day := 21, us := 0 }, lastExpected := some { day := 21, us := 0 }, pulses := 9, lastPulse := 47000000 }
    let s := { station9 with agreement := { agreementReset with
      timeState := .referenced, grade := 1, arming := some arming } }
    let early := { s with agreement := { s.agreement with arming := some { arming with lastPulse := 47000001 } } }
    (after .referenceLoss s).agreement.timeState = .holdover ∧ (after .referenceLoss s).agreement.grade = 2 ∧
      (after .referenceLoss early).agreement.timeState = .referenced := by decide +kernel

/-- Section 3.6, the return: SET TIME arms; the pulse is taken as D, and the fourth good second is REFERENCED. -/
theorem test_reference_returns :
    let s := withImage (fun i => { i with terminals := i.terminals.set 5 .reference }) station9
    let armed := after (.setTime (period ([0, 21] ++ beOctets 5 (clock 21 16 5 400000)))) s
    let pulse := after .referencePulse armed
    let third := { armed with agreement := { armed.agreement with
      referenceGood := 3
      arming := some { armedDate := { day := 21, us := 0 }, lastExpected := some { day := 21, us := clock 21 16 4 400000 },
                       pulses := 3, lastPulse := 49000000 } } }
    armed.port.answer = some [0] ∧ referenceRunning pulse.agreement = true ∧ pulse.agreement.referenceGood = 1 ∧
      (after .referencePulse third).agreement.timeState = .referenced := by decide +kernel

/-- R20: the mark of second 6 that waits is given in epoch 12, before a pulse of 2 s later steps the station to epoch 13. -/
theorem test_mark_before_a_step :
    let a : Arming := { armedDate := { day := 21, us := clock 21 16 8 0 }, lastExpected := none, pulses := 0, lastPulse := 49000000 }
    let s := withImage (fun i => { i with terminals := i.terminals.set 5 .reference }) { acquiring9 with
      time := { acquiring9.time with date := { day := 21, us := clock 21 16 6 0 }, markDue := some 6 }
      agreement := { acquiring9.agreement with arming := some a } }
    let t := after .referencePulse s
    (t.time.markDue, t.time.epoch, t.time.date.us, t.line.presenceDue) = (none, 13, clock 21 16 8 0, some 50050000) := by
  decide +kernel

/-- R58: 8 s of silence in ACQUIRING give SELF-TIMED at grade 14. -/
theorem test_silence_timer :
    let s := { acquiring9 with time := { acquiring9.time with elapsed := 58000000 } }
    (after .silenceTimerExpiry s).agreement.timeState = .selfTimed ∧ (after .silenceTimerExpiry s).agreement.grade = 14 ∧
      (after .silenceTimerExpiry { s with time := { s.time with elapsed := 57999999 } }).agreement = s.agreement := by
  decide +kernel

/-- Section 2.7, station 7: rank 0 of an URGENT NOTICE with event sequence 2 210 at the head. -/
def station7 : State :=
  { withImage (fun i => { i with station := 7 }) station9 with
    line := { station9.line with
      score := 10, nextOrder := 2
      txQueue := [{ rank := 0, body := .notice true noticeBody9, attempts := 0, eventSeq := some 2210, order := 0,
                    refreshed := false },
                  { rank := 3, body := .notice false noticeBody9, attempts := 0, eventSeq := some 2211, order := 1,
                    refreshed := false }] } }

/-- Section 2.7, the busy gap end: OBJECTED leaves 18 and attempts used 1; COMPLETED then leaves 17 and the rank-3 item
as head. -/
theorem test_objected_then_completed :
    let begun := after .beginReadyFrame station7
    let objected := after (.frameOutcome .objected) begun
    let again := after .beginReadyFrame (after .lineIdle objected)
    let completed := after (.frameOutcome .completed) again
    begun.line.condition = .frame ∧ objected.line.score = 18 ∧ objected.line.txQueue.map (·.attempts) = [1, 0] ∧
      completed.line.score = 17 ∧ completed.line.txQueue.map (·.eventSeq) = [some 2211] := by decide +kernel

/-- R34: the third collision in a row withdraws the station with score 192. -/
theorem test_third_collision_withdraws :
    let begun := after .beginReadyFrame { station7 with line := { station7.line with collisions := 2 } }
    let t := after (.frameOutcome .collided) begun
    t.line.standing = .withdrawn ∧ t.line.score = 192 ∧ t.line.txQueue = [] ∧
      (t.report.urgent[urgentIndex .duplicateStation]).count = 1 := by decide +kernel

/-- R24, R26, R33, R35: a bad frame on a line that was idle; station 20 of the example goes from 40 to 41. -/
theorem test_bad_frame_scores_one :
    let s := after (.dominantLeadIn .short) { station9 with line := { station9.line with score := 40 } }
    let t := after (.receiveBadFrame .checkDisagrees) s
    s.line.condition = .frame ∧ t.line.score = 41 ∧ t.line.condition = .awaitRecessive ∧ t.line.objecting = true ∧
      (after .lineIdle t).line.condition = .idle := by decide +kernel

/-- R25: a TIME frame behind a short start mark is malformed: scored as a bad frame, and not objected to. -/
theorem test_kind_that_does_not_fit_its_start_mark :
    let t := after (.receiveTimeFrame (sealTime 2 4 timeBody9)) (after (.dominantLeadIn .short) station9)
    t.line.score = 1 ∧ t.line.condition = .awaitRecessive ∧ t.line.objecting = false ∧ t.line.heard[3] = heardNever := by
  decide +kernel

/-- R33, R35, R37: the collision takes a FULL station at 88 to QUIET at its end; the bad remainder is objected to by the
standing in force on the frame, and not scored. -/
theorem test_objection_to_a_bad_remainder :
    let begun := after .beginReadyFrame { station7 with line := { station7.line with score := 88 } }
    let collided := after (.frameOutcome .collided) begun
    let t := after (.receiveBadFrame .checkDisagrees) collided
    collided.line.standing = .quiet ∧ t.line.objecting = true ∧ t.line.score = 96 := by decide +kernel

/-- Section 7.7: the acceptance list of station 9 and its heard entry for origin 23. -/
def hears23 : State :=
  let offer (a b c d : BitVec 6) (o : Bool) : Option AcceptEntry :=
    some { originValue := a, originMask := b, channelValue := c, channelMask := d, offer := o }
  let s := withImage (fun i => { i with acceptance :=
    ((i.acceptance.set 0 (offer 23 63 12 63 false)).set 1 (offer 16 48 0 0 true)).set 2 (offer 23 63 7 63 true) }) station9
  { s with line := { s.line with condition := .frame, heard := s.line.heard.set 22 { heardNever with
      presence := .present, lastGood := some 49000000, silenceExpiry := some 55000000, lastSeq := some 40, missed := 3
      recent := [{ seq := 40, date := { day := 21, us := 0 }, epoch := 12 }] } } }

/-- The notices 41 and 43 and the PRESENCE that carries 44. -/
def notice41 : NoticeFrame := sealNotice false 2 23 noticeBody9
def notice43 : NoticeFrame := sealNotice true 0 23 { noticeBody9 with seq := 43, channel := 3, newState := false }
def presence44 : PresenceFrame := sealPresence 0 23 presenceBody9

/-- Section 7.7: 41 is new, 43 adds one to the missed count; hit count 1 becomes 2 and entry 2 gains none. -/
theorem test_notices_of_origin_23 :
    let s := after (.receiveNotice notice43) (after (.receiveNotice notice41) hears23)
    ((s.line.heard[22]).missed, s.line.hits[1], s.line.hits[2], (s.line.heard[22]).recent.map (·.seq)) =
      (4, 2, 0, [43, 41, 40]) := by decide +kernel

/-- Section 7.7: 41 again, the same date and epoch, is a repeat. -/
theorem test_repeat_of_notice_41 :
    let s := after (.receiveNotice notice41) hears23
    let t := after (.receiveNotice notice41) s
    (t.line.heard[22], t.line.hits[1]) = (s.line.heard[22], 1) := by decide +kernel

/-- Section 7.7: k = 1 adds one and makes 44 the last; k = 212 after the restart adds nothing. -/
theorem test_presence_of_origin_23 :
    let t := hearPresence presence44.body { hears23.line.heard[22] with lastSeq := some 43, missed := 4 }
    let u := hearPresence { presenceBody9 with lastSeq := 0 } t
    (t.missed, t.lastSeq, u.missed, u.lastSeq) = (5, some 44, 5, some 44) ∧
      (after (.receivePresence presence44) hears23).line.heard[22].missed = 7 := by decide +kernel

/-- Section 7.7: 6 s after its last good frame the entry turns SILENT, and not before. -/
theorem test_silence_expiry :
    let s := { hears23 with time := { hears23.time with elapsed := 55000000 } }
    (after (.silenceExpiry 22) s).line.heard[22].presence = .silent ∧
      (after (.silenceExpiry 22) hears23).line.heard[22].presence = .present := by decide +kernel

/-- R41, R114, R115: the PRESENCE of an even second falls due 50 000 µs after its mark. -/
theorem test_presence_falls_due :
    let s := after .secondMark { station9 with time := { station9.time with markDue := some 6 } }
    let t := after .presenceDue { s with time := { s.time with elapsed := 50050000 } }
    s.line.presenceDue = some 50050000 ∧ t.line.txQueue.map isPresenceItem = [true] ∧ t.line.presenceDue = none := by
  decide +kernel

/-! ## Chapters 4 to 6: inputs, movements and the event queue -/

/-- Section 4.8: terminal 14 watched by station 9, with settle time 20 ms, class NORMAL, priority 2, and pair 3 driven
by terminal 15 with a limit of 6.0 s. -/
def points9 : State :=
  let s := withImage (fun i => { i with
    terminals := (i.terminals.set 14 (.input 20 .normal 2)).set 15 (.input 30 .none 0)
    pairs := i.pairs.set 2 (some { drive := 15, detection := 14, limitTenths := 60 }) }) station9
  { s with
    inputs := (s.inputs.set 14 { inputReset with proven := some false }).set 15 { inputReset with proven := some false }
    line := { s.line with ownSeq := 57 }
    events := { s.events with nextSeq := 3306 } }

/-- The same station with a level at terminal 14, some microseconds later. -/
def edgeAt (us : Nat) (level : Bool) (s : State) : State :=
  after (.edge 14 level) { s with time := { s.time with elapsed := 50000000 + usSpan us } }

/-- The five edges of section 4.8. -/
def burst14 : State :=
  edgeAt 4100 true (edgeAt 2600 false (edgeAt 1900 true (edgeAt 800 false (edgeAt 0 true points9))))

/-- Section 4.8: after the last edge 2 bounces and a settle expiry of E+24 100. -/
theorem test_bouncing_input :
    (burst14.inputs[14].burst.map fun b => (b.bounces, b.expiry, b.start)) = some (2, 50024100, 50000000) := by
  decide +kernel

/-- Section 4.8: the change is proven at E+24 100: notice sequence 58, event 3 306, QUEUED, bounce count 2, rank 2; not
a microsecond earlier. -/
theorem test_proven_change :
    let s := { burst14 with time := { burst14.time with elapsed := 50024100 } }
    let t := after (.settleExpiry 14) s
    t.line.ownSeq = 58 ∧
      t.events.records = [{ seq := 3306, stamp := stampNow points9, body := .stateChange 14 true 2 .queued (some 58) }] ∧
      t.line.txQueue.map (·.rank) = [2] ∧
      (after (.settleExpiry 14) { s with time := { s.time with elapsed := 50024099 } }).events.records = [] := by
  decide +kernel

/-- Pair 3 in MOVING from a drive burst that began so many microseconds before E+0. -/
def moving3 (us : Nat) (s : State) : State :=
  { s with pairs := s.pairs.set 2 (.moving { stamp := stampNow points9, elapsed := 50000000 - usSpan us }
      (50000000 - usSpan us + 6000000)) }

/-- Section 5.7, a normal movement: the duration is 3 530 578 µs. -/
theorem test_normal_movement :
    let s := moving3 3530578 { burst14 with time := { burst14.time with elapsed := 50024100 } }
    let t := after (.settleExpiry 14) s
    t.pairs[2] = .idle ∧ t.events.records.map (·.body) = [.stateChange 14 true 2 .queued (some 58),
      .movement 3 .normal { date := points9.time.date, epoch := 12 } (some 3530578)] := by decide +kernel

/-- Section 5.7, an overrun: OVERTIME at the limit, then LATE-END with 5 990 000 µs. -/
theorem test_overrun :
    let s := after (.limitExpiry 2) (moving3 5990000 { burst14 with time := { burst14.time with elapsed := 50010000 } })
    let t := after (.settleExpiry 14) { s with time := { s.time with elapsed := 50024100 } }
    s.events.records.map (·.body) = [.movement 3 .overtime { date := points9.time.date, epoch := 12 } none] ∧
      t.pairs[2] = .idle ∧ t.events.records.getLast?.map (·.body) =
        some (.movement 3 .lateEnd { date := points9.time.date, epoch := 12 } (some 5990000)) := by decide +kernel

/-- Section 5.7, a restart: the drive makes again after 2 700 000 µs. -/
theorem test_restarted_movement :
    let g : Signal := { drive := true, on := true, stamp := stampNow points9, elapsed := 50000000 }
    let t := takeSignal 2 { drive := 15, detection := 14, limitTenths := 60 } g (moving3 2700000 points9)
    t.events.records.map (·.body) = [.movement 3 .restarted { date := points9.time.date, epoch := 12 } (some 2700000)] ∧
      t.pairs[2] = .moving { stamp := stampNow points9, elapsed := 50000000 } 56000000 := by decide +kernel

/-- A queue of so many START markers, numbered up to just below `next`. -/
def queueOf (count : Nat) (next : SeqNumber) : EventQueue :=
  { records := (List.range count).map fun k =>
      { seq := next - BitVec.ofNat 16 (count - k), stamp := stampNow station9, body := .start .powerOn }
    nextSeq := next, lost := none, cause := .powerOn }

/-- Section 6.6, offer 3: at occupancy 508 a STATE CHANGE is lost with number 40 002, and GAP 40 003 is admitted. -/
theorem test_loss_and_gap :
    let s := { station9 with events := queueOf 508 40002 }
    let t := offerRecord (stampNow s) (.stateChange 6 false 0 .notShared none) s
    t.events.records.length = 509 ∧ t.events.records.getLast?.map (fun r => (r.seq, kindCode r.body)) = some (40003, 7) ∧
      (t.report.urgent[urgentIndex .eventLoss]).count = 1 := by decide +kernel

/-- Section 6.6: a TIME STEP finds a reserved place at occupancy 510. -/
theorem test_marker_in_a_reserved_place :
    let s := { station9 with events := queueOf 510 40006 }
    (offerRecord (stampNow s) (.timeStep s.time.date s.time.date) s).events.records.length = 511 ∧
      (offerRecord (stampNow s) (.timeStep s.time.date s.time.date) s).events.lost = none := by decide +kernel

/-- Section 6.6: TAKE EVENTS with n = 4 at occupancy 512 and tally 2 returns four records and admits GAP 40 011. -/
theorem test_take_events :
    let d : DatedEpoch := { date := station9.time.date, epoch := 4 }
    let s := { station9 with events := { queueOf 512 40011 with lost := some { tally := 2, first := d, last := d } } }
    let t := after (.takeEvents (period [4])) s
    t.events.records.length = 509 ∧ t.events.lost = none ∧
      t.events.records.getLast?.map (fun r => (r.seq, r.body)) = some (40011, .gap 2 d d) ∧
      (t.port.answer.map fun a => (a.take 4, a.length)) = some ([0, 4, 0x9A, 0x4B], 130) := by decide +kernel

/-- R197, the layout of a STATE CHANGE record, octet by octet. -/
theorem test_event_record_octets :
    let r : EventRecord := { seq := 3306, body := .stateChange 14 true 2 .queued (some 58)
                             stamp := { date := { day := 21, us := 0x0102030405 }, epoch := 12, timeState := .agreed } }
    eventRecordOctets r = [0x0C, 0xEA, 3, 3, 12, 0, 21, 1, 2, 3, 4, 5, 14, 1, 0, 2, 1, 58, 1] ++ List.replicate 13 0 := by
  decide +kernel

/-- R110: PEEK EVENT with k = 1 returns the second record and removes nothing. -/
theorem test_peek_event :
    let s := { station9 with events := queueOf 2 4 }
    (answerTo (.peekEvent (period [0, 1])) s).map (·.take 4) = some [0, 0, 3, 1] ∧
      (answerTo (.peekEvent (period [0, 2])) s) = some [1, 2] ∧
      (after (.peekEvent (period [0, 1])) s).events = s.events := by decide +kernel

/-! ## Chapter 8: timetable checks -/

/-- Section 8.8: station 9 with G = 200 ms at 21:16:05:00, its entry for origin 23 PRESENT with missed count 5. -/
def checks9 : State :=
  let s := withImage (fun i => { i with grace := 200 }) station9
  { s with
    time := { s.time with date := { day := 21, us := clock 16 5 0 0 } }
    line := { s.line with heard := s.line.heard.set 22 { heardNever with
      presence := .present, silenceExpiry := some 99000000, missed := 5 } } }

/-- The LOAD ENTRY parameters of slot 10 and slot 11, written out by R198. -/
def load10 : List Octet :=
  [0, 10, 0, 21, 1, 0] ++ [0, 21] ++ beOctets 5 (clock 16 30 0 0) ++ [0, 0, 0, 0] ++ [0, 0x75, 0x30] ++ [0, 0xEA, 0x60] ++
    [3, 0, 0, 0]
def load11 : List Octet :=
  [0, 11, 23, 7, 1, 1] ++ List.replicate 7 0 ++ [0, 1, 0x5F, 0x90] ++ [0, 0x4E, 0x20] ++ [0, 0x4E, 0x20] ++ [5, 1, 0, 10]


/-- Centre time at a time of day. -/
def atClock (us : Nat) (s : State) : State := { s with time := { s.time with date := { day := 21, us := us } } }

/-- Section 8.8, loading: slot 11 first is RANGE; then 10 is PENDING with its three dates and 11 is WAITING. -/
theorem test_loading_the_chain :
    let loaded9 := after (.loadEntry (period load11)) (after (.loadEntry (period load10)) checks9)
    answerTo (.loadEntry (period load11)) checks9 = some [1, 2] ∧ loaded9.port.answer = some [0] ∧
      (loaded9.checker.slots[10].bind (·.dates)) = some {
        due := { day := 21, us := clock 16 30 0 0 }, opening := { day := 21, us := clock 16 19 30 0 }
        missDeadline := { day := 21, us := clock 16 31 0 200000 } } ∧
      loaded9.checker.slots[11].map (·.status) = some .waiting ∧
      loaded9.checker.deadlines.map (fun d => (d.slot, d.kind)) = [(10, .opening)] := by decide +kernel

/-- Slot 10 and slot 11 of the example as they stand once loaded. -/
def entry10 : CheckEntry :=
  { origin := 0, channel := 21, state := .on, dueKind := .absolute { day := 21, us := clock 16 30 0 0 }, earlyMs := 30000,
    lateMs := 60000, grade := 3, predecessor := none, status := .pending, verdict := none, armingDate := none,
    snapshot := none, matched := none
    dates := some {
      due := { day := 21, us := clock 16 30 0 0 }, opening := { day := 21, us := clock 16 19 30 0 }
      missDeadline := { day := 21, us := clock 16 31 0 200000 } } }
def entry11 : CheckEntry :=
  { origin := 23, channel := 7, state := .on, dueKind := .relative 90000, earlyMs := 20000, lateMs := 20000, grade := 5,
    predecessor := some 10, status := .waiting, verdict := none, dates := none, armingDate := none, snapshot := none,
    matched := none }

/-- Those two entries and a deadline list at a time of day. -/
def chain9 (us : Nat) (e10 e11 : CheckEntry) (deadlines : List Deadline) : State :=
  { atClock us checks9 with checker := { checkerReset with
      slots := (checkerReset.slots.set 10 (some e10)).set 11 (some e11), deadlines := deadlines } }

/-- Section 8.8, arming: at 16:19:30 slot 10 is ARMED without a snapshot; a microsecond earlier nothing fires. -/
theorem test_arming :
    let list : List Deadline := [{ date := { day := 21, us := clock 16 19 30 0 }, slot := 10, kind := .opening }]
    let t := after .openFire (chain9 (clock 16 19 30 0) entry10 entry11 list)
    t.checker.slots[10].map (fun e => (e.status, e.armingDate, e.snapshot)) =
      some (.armed, some { day := 21, us := clock 16 19 30 0 }, none) ∧
    t.checker.deadlines.map (·.date) = [{ day := 21, us := clock 16 31 0 200000 }] ∧
    (after .openFire (chain9 (clock 16 19 29 999999) entry10 entry11 list)).checker.deadlines = list := by decide +kernel

/-- Section 8.8, the first match at 16:30:12.408 331: slot 10 SATISFIED ON-TIME, slot 11 ARMED at once, snapshot 5. -/
theorem test_first_match :
    let list : List Deadline := [{ date := { day := 21, us := clock 16 31 0 200000 }, slot := 10, kind := .miss }]
    let t := takeObservation
      { own := true, origin := 9, channel := 21, state := true, epoch := 12, timeState := .agreed
        date := { day := 21, us := clock 16 30 12 408331 } }
      (chain9 (clock 16 30 12 438331) { entry10 with status := .armed } entry11 list)
    t.checker.slots[10].map (fun e => (e.status, e.verdict)) = some (.satisfied, some .onTime) ∧
    t.report.deviations = [] ∧
    t.checker.slots[11].map (fun e => (e.status, e.snapshot, e.dates.map (·.due))) =
      some (.armed, some 5, some { day := 21, us := clock 16 31 42 408331 }) ∧
    t.checker.deadlines.map (·.date) = [{ day := 21, us := clock 16 32 2 608331 }] := by decide +kernel

/-- Slot 11 in a later status. -/
def entry11At (status : EntryStatus) : CheckEntry :=
  { entry11 with
    status := status, snapshot := some 5
    dates := some {
      due := { day := 21, us := clock 16 31 42 408331 }, opening := { day := 21, us := clock 16 21 22 408331 }
      missDeadline := { day := 21, us := clock 16 32 2 608331 } } }

/-- Slot 11 ARMED at its miss deadline, slot 10 SATISFIED. -/
def atMiss9 : State :=
  chain9 (clock 16 32 2 608331) { entry10 with status := .satisfied } (entry11At .armed)
    [{ date := { day := 21, us := clock 16 32 2 608331 }, slot := 11, kind := .miss }]

/-- Section 8.8, the miss: MISSED, and UNOBSERVABLE where the missed count has risen above the snapshot of 5. -/
theorem test_miss :
    let lossy := { atMiss9 with line := { atMiss9.line with heard := atMiss9.line.heard.set 22 { heardNever with
      presence := .present, missed := 6 } } }
    (after .missFire atMiss9).report.deviations.map (fun d => (d.kind, d.grade)) = [(.missed, 5)] ∧
      (after .missFire lossy).report.deviations.map (fun d => (d.kind, d.grade)) = [(.unobservable, 5)] := by
  decide +kernel

/-- Section 8.8, the notice after the miss: CLEARED with 19 891 ms. -/
theorem test_clearing :
    let late : Observation :=
      { own := false, origin := 23, channel := 7, state := true, epoch := 12, timeState := .agreed
        date := { day := 21, us := clock 16 32 2 300000 } }
    let t := takeObservation late (chain9 (clock 16 32 2 620400) { entry10 with status := .satisfied } (entry11At .missed) [])
    t.checker.slots[11].map (·.status) = some .cleared ∧
      t.report.deviations.map (fun d => (d.kind, d.grade, d.observation.map (·.differenceMs))) =
        [(.cleared, 5, some 19891)] := by decide +kernel

/-- R144: cancelling slot 10 voids slot 11, removes its link, and READ ENTRY then shows slot 10 EMPTY. -/
theorem test_cancel_entry :
    let t := after (.cancelEntry (period [0, 10])) (chain9 (clock 16 5 0 0) entry10 entry11 [])
    t.checker.deadlines = [] ∧ t.checker.slots[11].map (fun e => (e.status, e.predecessor)) = some (.void, none) ∧
      answerTo (.readEntry (period [0, 10])) t = some (0 :: 10 :: List.replicate 65 0) := by decide +kernel

/-- R197: the first octets of slot 11 as READ ENTRY returns it while WAITING. -/
theorem test_entry_octets :
    (answerTo (.readEntry (period [0, 11])) (chain9 (clock 16 5 0 0) entry10 entry11 [])).map (·.take 14) =
      some [0, 11, 1, 0, 0x21, 23, 7, 1, 5, 10, 0, 1, 0x5F, 0x90] := by decide +kernel

/-! ## Chapter 9: deviations and urgent conditions -/

/-- A held deviation record. -/
def heldDeviation (seq : SeqNumber) (grade : Nat) : Deviation :=
  { seq := seq, kind := .missed, slot := 0, grade := grade, due := { day := 21, us := 0 }, observation := none, doubt := false }

/-- Section 9.6: 2 records of grade 6, 10 of grade 5 and 51 of grade 1, next sequence 163, in HOLDOVER. -/
def station23 : State :=
  { station9 with
    agreement := { station9.agreement with timeState := .holdover, holdover := some { grade := 2, elapsed := 0 } }
    report := { reportReset with
      deviations := (List.replicate 2 (heldDeviation 112 6) ++ List.replicate 10 (heldDeviation 120 5)) ++
        List.replicate 51 (heldDeviation 140 1)
      nextSeq := 163, attention := true } }

/-- A check entry of that grade, as far as a deviation reads it. -/
def gradedEntry (grade : Nat) : CheckEntry :=
  loadedEntry { slot := 12, origin := 0, channel := 0, state := .any, dueKind := .relative 0, earlyMs := 0, lateMs := 0,
                grade := grade, predecessor := none } .missed

/-- Section 9.6: LATE grade 1 is admitted, MISSED grade 5 displaces it, EARLY grade 1 is discarded; displaced count 2. -/
theorem test_full_deviation_queue :
    let due : Date := { day := 21, us := 0 }
    let a := handDeviation .late 40 (gradedEntry 1) due none station23
    let b := handDeviation .missed 12 (gradedEntry 5) due none a
    let c := handDeviation .early 41 (gradedEntry 1) due none b
    a.report.deviations.length = 64 ∧ b.report.deviations[12]?.map (fun d => (d.seq, d.doubt)) = some (164, true) ∧
      b.report.displaced = 1 ∧ c.report.displaced = 2 ∧ c.report.deviations = b.report.deviations := by decide +kernel

/-- Section 9.6: 21:16:29:20.500 400 against 21:16:30:00 is −39 499 ms, truncated toward zero. -/
theorem test_difference_truncates_toward_zero :
    let seen : Matched := { origin := 9, date := { day := 21, us := clock 16 29 20 500400 }, epoch := 12 }
    let t := handDeviation .early 12 (gradedEntry 1) { day := 21, us := clock 16 30 0 0 } (some (seen, .agreed)) station9
    t.report.deviations.map (fun d => d.observation.map (·.differenceMs)) = [some (-39499)] := by decide +kernel

/-- Section 9.6: CLEAR URGENT naming TIME-DEGRADED clears its flag; ATTENTION stays for the head of grade 6. -/
theorem test_clear_urgent :
    let s := raiseUrgentNow .timeDegraded station23
    let t := after (.clearUrgent (period [2])) s
    (s.report.urgent[1]).count = 1 ∧ t.report.urgent[1] = urgentClear ∧ t.report.attention = true ∧
      answerTo (.clearUrgent (period [128])) s = some [1, 2] := by decide +kernel

/-- Section 9.6: after the last take above the threshold ATTENTION falls; an empty queue is EMPTY. -/
theorem test_take_deviation :
    let s := { station23 with report := { station23.report with deviations := [heldDeviation 164 5, heldDeviation 100 1] } }
    let t := after (.takeDeviation (period [])) s
    t.report.attention = false ∧ t.report.deviations = [heldDeviation 100 1] ∧
      (t.port.answer.map (·.take 7)) = some [0, 0, 164, 3, 0, 5, 0] ∧
      answerTo (.takeDeviation (period [])) station9 = some [1, 4] := by decide +kernel

/-! ## Chapter 10: clock lines -/

/-- Section 10.10: clock line 2 at a dial position and a polarity, its last pulse so many microseconds ago. -/
def clock9 (dial : Nat) (polarity : Polarity) (ago : Nat) : State :=
  let s := withImage (fun i => { i with lines := i.lines.set 1 (some
    { driveA := 20, driveB := 21, proving := 22, stepSeconds := 60, widthMs := 1000, spacingSeconds := 2,
      holdMinutes := 60 }) }) station9
  { s with clocks := s.clocks.set 1 { clockLinePowerOn with
      state := .active, dial := some dial, nextPolarity := polarity, lastStart := some (50000000 - usSpan ago) } }

/-- Section 10.10, the natural step at 02:00:00: target 120, dial 119, a pulse of polarity B starts at once. -/
theorem test_natural_step :
    let t := after (.stepBoundary 1) (atClock (clock 2 0 0 0) (clock9 119 .b 60000000))
    t.clocks[1].pulse.map (·.polarity) = some .b ∧ t.clocks[1].driveB = true ∧ t.clocks[1].driveA = false := by
  decide +kernel

/-- Section 10.10: at 01:00:02 with dial 120, ahead is 60; the line holds with H = 60 and would not with 59 min. -/
theorem test_hold_span :
    let s := atClock (clock 1 0 2 0) (clock9 120 .a 2000000)
    let narrow := withImage (fun i => { i with lines := i.lines.map (Option.map fun c => { c with holdMinutes := 59 }) }) s
    (after (.pulseStart 1) s).clocks[1].pulse = none ∧ (after (.pulseStart 1) narrow).clocks[1].pulse.isSome = true ∧
      dialLag 720 60 120 = 660 ∧ dialAhead 720 60 120 = 60 := by decide +kernel

/-- Section 10.10, the catch-up: the mains returns at 05:24:45 with the dial at 310, and a pulse of polarity A starts. -/
theorem test_mains_returns :
    let s := after (.supplyChange .reduced) (atClock (clock 5 10 20 0) (clock9 310 .a 20000000))
    let t := after (.supplyChange .normal) (atClock (clock 5 24 45 0) s)
    s.clocks[1].state = .suspended ∧ t.clocks[1].state = .active ∧
      t.clocks[1].pulse.map (·.polarity) = some .a := by decide +kernel

/-- Line 2 with a pulse of polarity A that began a pulse width ago, after so many unproven ones. -/
def pulsing9 (unproven : Nat) : State :=
  let s := atClock (clock 5 24 46 0) (clock9 310 .a 1000000)
  { s with clocks := s.clocks.set 1 { s.clocks[1] with
      pulse := some { start := 49000000, polarity := .a, seenOn := false }, driveA := true, unproven := unproven } }

/-- Section 10.10: a proven pulse makes 311 and polarity B; an unproven one keeps 310 and A; the third is FAULT. -/
theorem test_pulse_ends :
    let proven := after (.pulseEnd 1) (putLevel 22 true (pulsing9 2))
    let unproven := after (.pulseEnd 1) (pulsing9 0)
    let third := after (.pulseEnd 1) (pulsing9 2)
    (proven.clocks[1].dial, proven.clocks[1].nextPolarity, proven.clocks[1].unproven) = (some 311, .b, 0) ∧
      (unproven.clocks[1].dial, unproven.clocks[1].nextPolarity, unproven.clocks[1].unproven) = (some 310, .a, 1) ∧
      third.clocks[1].state = .fault ∧ (third.report.urgent[6]).count = 1 ∧ third.clocks[1].driveA = false := by
  decide +kernel

/-- R182: SET DIAL places an UNSET line, refuses a line not configured, and a position of 720 in a dial of 720 steps. -/
theorem test_set_dial :
    let s := clock9 310 .b 60000000
    (after (.setDial (period [2, 2, 0xCF])) s).clocks[1].dial = some 719 ∧
      answerTo (.setDial (period [2, 2, 0xD0])) s = some [1, 2] ∧ answerTo (.setDial (period [1, 0, 0])) s = some [1, 1] := by
  decide +kernel

/-! ## Chapter 11: the service port -/

/-- R187, R188: an unknown code is RANGE and 73 octets are LENGTH; the answer is clocked out in the next period. -/
theorem test_refusals :
    answerTo (.unknownCommand [15] false) station9 = some [1, 2] ∧
    answerTo (.unknownCommand (0 :: List.replicate 72 0) false) station9 = some [1, 3] ∧
    answerTo (.start (period [])) station9 = some [1, 1] ∧
    (after (.answerOnlySelectPeriod 2 false) (after (.start (period [])) station9)).port.output = [1, 1] := by decide +kernel

/-- R198: the octets of a period, read by their code: 4 is READ STATUS, 5 with the parameter 9 TAKE EVENTS with n = 9. -/
theorem test_octets_name_their_command :
    answerTo (.unknownCommand [4] false) station9 = answerTo (.readStatus (period [])) station9 ∧
    periodCommand [5, 9] false = .takeEvents (period [9]) ∧ answerTo (.unknownCommand [5, 9] false) station9 = some [1, 2] := by
  decide +kernel

/-- R189, R190: CONFIGURE terminal 14 as an INPUT of 20 ms, NORMAL, priority 2; a settle time of 0 is RANGE. -/
theorem test_configure :
    (after (.configure (period [7, 14, 1, 20, 1, 2])) inConfig9).port.image.terminals[14] = .input 20 .normal 2 ∧
    answerTo (.configure (period [7, 14, 1, 0, 1, 2])) inConfig9 = some [1, 2] ∧
    answerTo (.configure (period [11, 0, 0])) inConfig9 = some [1, 2] ∧
    answerTo (.configure (period [1, 0, 7])) station9 = some [1, 1] := by decide +kernel

/-- R72, R103, R192: START with one INPUT terminal that stands ON. -/
theorem test_start :
    let t := after (.start (period [])) (putLevel 14 true (withImage (fun i => { i with
      terminals := i.terminals.set 14 (.input 20 .normal 2) }) inConfig9))
    t.port.station = .run ∧ t.agreement.timeState = .acquiring ∧
      t.events.records.map (fun r => (r.seq, r.body)) = [(0, .start .powerOn), (1, .stateAtStart 14 true)] := by
  decide +kernel

/-- R191: a pair whose drive input is no INPUT is refused with CONFIG, class 8, index 3. -/
theorem test_start_refused :
    answerTo (.start (period [])) (withImage (fun i => { i with
      pairs := i.pairs.set 2 (some { drive := 15, detection := 14, limitTenths := 60 }) }) inConfig9) = some [1, 5, 8, 3] := by
  decide +kernel

/-- R193: RESTART keeps centre time, raises the epoch, and the next START marker carries the cause RESTART. -/
theorem test_restart :
    let t := after (.restart (period [])) station9
    t.port.station = .config ∧ t.time.date = station9.time.date ∧ t.time.epoch = 13 ∧
      (after (.start (period [])) t).events.records.map (·.body) = [.start .restart] := by decide +kernel

/-- R199: READ STATUS of station 9 by octet: RUN, station 9, AGREED, grade 3, epoch 12, day 21, then µs of day. -/
theorem test_read_status :
    (answerTo (.readStatus (period [])) station9).map (fun a => (a.length, a.take 8)) =
      some (163, [0, 2, 9, 3, 3, 12, 0, 21]) := by decide +kernel

/-- R197: READ HEARD of origin 23 while PRESENT with last sequence 40 and 3 missed. -/
theorem test_read_heard :
    answerTo (.readHeard (period [23])) hears23 =
      some [0, 23, 1, 3, 0, 0, 2, 0xEB, 0xAE, 0x40, 40, 0, 3, 0, 0, 0, 0] ∧
    answerTo (.readHeard (period [63])) hears23 = some [1, 2] := by decide +kernel

/-! ## Witnesses: a state and operands that meet the hypotheses of each statement, clause by clause -/

/-- The step answers a next state. -/
def completes (s : State) : Bool :=
  match step s with
  | .next _ => true
  | .fault _ | .refused _ => false

/-- `station9` at an elapsed value, and with a second mark due. -/
def elapsed9 (us : Nat) (s : State) : State := { s with time := { s.time with elapsed := usSpan us } }
def markDue9 (second : Nat) (s : State) : State := { s with time := { s.time with markDue := some second } }

/-- `station9` with a pulse in flight on line 2, in CONFIG. -/
def pulsingInConfig : State := { pulsing9 0 with agreement := agreementReset, port := { (pulsing9 0).port with station := .config } }

theorem witness_StepTakesTheFrontCommand :
    ({ station9 with pending := [.lineIdle, .powerOn] } : State).pending = .lineIdle :: [.powerOn] := rfl

theorem witness_IdleStationTicksOrTakesADueEvent :
    station9.pending = [] ∧ dueEvents station9 = [] ∧ (markDue9 6 station9).pending = [] ∧
      dueEvents (markDue9 6 station9) ≠ [] := by decide +kernel

theorem witness_AnswerOnlyPeriodClocksOutTheAnswerOnce :
    station9.port.station ≠ .notQualified ∧ (holdAnswer [0] station9).port.answer = some [0] ∧
      station9.port.answer = none := by decide

theorem witness_PeriodsBegunInNotQualifiedAreDiscarded :
    (State.reset.port.station = .notQualified ∨ false = true) ∧ (station9.port.station = .notQualified ∨ true = true) ∧
      namesNoCommand [15] = true ∧ portRows ≠ [] := by
  refine ⟨.inl rfl, .inr rfl, by decide, by simp [portRows]⟩

/-- Codes 0 and 15, 72 and 73 octets, one parameter too many, and a command that the station state refuses. -/
theorem witness_CommandsAreRefusedByFormThenByStationState :
    station9.port.station ≠ .notQualified ∧ 72 < ((15 : Octet) :: List.replicate 72 0).length ∧ (0 : Octet).toNat = 0 ∧
      14 < (15 : Octet).toNat ∧ (∃ row ∈ portRows, 72 < (List.replicate 72 (0 : Octet)).length + 1 ∧
        ([0] : List Octet).length + 1 ≤ 72 ∧ ([0] : List Octet).length ≠ row.count ∧
        ([] : List Octet).length = row.count ∧ row.takenIn station9.port.station = false) ∧
      configureForm [1, 0] = false ∧ configureForm [1, 0, 7] = true ∧ station9.port.station = .run := by
  refine ⟨by decide, by decide, rfl, by decide, ⟨⟨.start, 0, true, false⟩, by simp [portRows], ?_⟩, by decide⟩
  decide

/-- A class of its own and a settle time of 0, which give no item; an item that a pulse holds, and one whose terminal's role
would change; free items of the first and last index. -/
theorem witness_ConfigureWritesOneItemWhole :
    pulsingInConfig.port.station = .config ∧ configureForm [11, 0] = true ∧ configureForm [7, 14, 1, 0, 1, 2] = true ∧
      (∀ i, ¬ (ItemLayout (field [11, 0] 0 1) (field [11, 0] 1 1) [] i ∧ ItemLegal i)) ∧
      (∀ i, ¬ (ItemLayout 7 14 [1, 0, 1, 2] i ∧ ItemLegal i)) ∧
      configureForm (9 :: 2 :: List.replicate 9 0) = true ∧
      (ItemLayout 9 2 (List.replicate 9 0) (.line 1 none) ∧ ItemLegal (.line 1 none)) ∧
      ItemHeld pulsingInConfig (.line 1 none) ∧ ItemHeld pulsingInConfig (.terminal 22 .proving) ∧
      ¬ ItemHeld pulsingInConfig (.line 3 none) ∧ ¬ ItemHeld pulsingInConfig (.terminal 22 .unused) ∧
      (ItemLayout 9 4 (List.replicate 9 0) (.line 3 none) ∧ ItemLegal (.line 3 none)) ∧
      (ItemLayout 10 15 (List.replicate 6 0) (.accept 15 none) ∧ ItemLegal (.accept 15 none)) ∧
      ¬ ItemHeld pulsingInConfig (.accept 15 none) ∧ field [7, 14, 1, 0, 1, 2] 0 1 = 7 ∧
      field [7, 14, 1, 0, 1, 2] 1 1 = 14 := by
  refine ⟨rfl, rfl, rfl, ?_, ?_, rfl, ⟨⟨rfl, rfl, rfl⟩, trivial⟩, by unfold ItemHeld; decide +kernel,
    ⟨by decide +kernel, 1, _, by decide +kernel, rfl, .inr (.inr rfl)⟩, by unfold ItemHeld; decide +kernel,
    fun h => absurd h.1 (by decide +kernel), ⟨⟨rfl, rfl, rfl⟩, trivial⟩, ⟨⟨rfl, rfl, rfl⟩, trivial⟩, id, rfl, rfl⟩
  · rintro (_ | _ | _ | _ | _ | _ | ⟨_, _ | _ | _ | _ | _⟩ | ⟨_, _ | _⟩ | ⟨_, _ | _⟩ | ⟨_, _ | _⟩) ⟨h, -⟩ <;>
      exact absurd h.1 (by decide)
  · rintro (_ | _ | _ | _ | _ | _ | ⟨_, _ | ⟨settle, _, _⟩ | _ | _ | _⟩ | ⟨_, _ | _⟩ | ⟨_, _ | _⟩ | ⟨_, _ | _⟩) ⟨h, hl⟩
    case terminal.input => exact absurd (h.2.2.2.1.symm ▸ hl.1 : 1 ≤ field [1, 0, 1, 2] 1 1) (by decide)
    all_goals first
      | exact absurd h.1 (by decide)
      | exact absurd h.2.2 (by decide)

theorem witness_ReadStatusReturnsTheStatusOctets :
    station9.port.station ≠ .notQualified ∧ inConfig9.port.station = .config := by decide

theorem allPass {img : Image} (h : badItem img = none) : ImagePasses img := (badItem_eq_none_iff img).mp h
theorem noneFails {n : Nat} {p : Fin n → Bool} {q : Fin n → Prop} (hq : ∀ k, p k = true ↔ q k)
    (h : ∀ k, p k = false) : ∀ k, ¬ q k := fun k hk => by
  simpa [h k] using (hq k).mpr hk

/-- Images in CONFIG: a second REFERENCE; a CLOCK that no line names; a pair without INPUT terminals; a line whose pulse
is 10 ms too wide for its spacing by R191, and one at the bound. -/
def withReferences9 : Image :=
  { imageDefault with terminals := (imageDefault.terminals.set 3 .reference).set 5 .reference }
def withClock9 : Image := { imageDefault with terminals := imageDefault.terminals.set 39 .clock }
def withPair9 : Image := { imageDefault with pairs := imageDefault.pairs.set 2 (some { drive := 15, detection := 14, limitTenths := 60 }) }
def withLine9 (width : Nat) : Image :=
  { imageDefault with
    terminals := ((imageDefault.terminals.set 20 .clock).set 21 .clock).set 22 .proving
    lines := imageDefault.lines.set 3 (some { driveA := 20, driveB := 21, proving := 22, stepSeconds := 60,
                                              widthMs := width, spacingSeconds := 1, holdMinutes := 60 }) }

theorem witness_StartValidatesThenEntersRun :
    inConfig9.port.station = .config ∧
      (TerminalFails withReferences9 5 ∧ ∀ u < (5 : Fin 40), ¬ TerminalFails withReferences9 u) ∧
      (TerminalFails withClock9 39 ∧ ∀ u < (39 : Fin 40), ¬ TerminalFails withClock9 u) ∧
      ((∀ t, ¬ TerminalFails withPair9 t) ∧ PairFails withPair9 2 ∧ ∀ j < (2 : Fin 8), ¬ PairFails withPair9 j) ∧
      ((∀ t, ¬ TerminalFails (withLine9 810) t) ∧ (∀ j, ¬ PairFails (withLine9 810) j) ∧ LineFails (withLine9 810) 3 ∧
        ∀ j < (3 : Fin 4), ¬ LineFails (withLine9 810) j) ∧
      ImagePasses (withLine9 800) ∧ ImagePasses inConfig9.port.image ∧
      inConfig9.events = eventQueueReset inConfig9.events.cause := by
  refine ⟨rfl, ⟨(terminalFails_iff _ _).mp (by decide +kernel), fun u hu h => ?_⟩,
    ⟨(terminalFails_iff _ _).mp (by decide +kernel), fun u hu h => ?_⟩,
    ⟨noneFails (terminalFails_iff _) (by decide +kernel), (pairFails_iff _ _).mp (by decide +kernel), fun j hj h => ?_⟩,
    ⟨noneFails (terminalFails_iff _) (by decide +kernel), noneFails (pairFails_iff _) (by decide +kernel),
      (lineFails_iff _ _).mp (by decide +kernel), fun j hj h => ?_⟩,
    allPass (by decide +kernel), allPass (by decide +kernel), rfl⟩
  · exact absurd ((terminalFails_iff _ _).mpr h) (by clear h; revert u; decide +kernel)
  · exact absurd ((terminalFails_iff _ _).mpr h) (by clear h; revert u; decide +kernel)
  · exact absurd ((pairFails_iff _ _).mpr h) (by clear h; revert j; decide +kernel)
  · exact absurd ((lineFails_iff _ _).mpr h) (by clear h; revert j; decide +kernel)

theorem witness_RestartResetsEveryBlockAndKeepsTheTime : station9.port.station ≠ .notQualified := by decide

/-- Items and a LOAD ENTRY at the ends of their ranges; 71 and 72 parameter octets; codes 0 and 15. -/
theorem witness_HostOctetsReadBackAsTheyWereSpelt :
    field (0 :: 255 :: List.replicate 25 0) 0 2 = (255 : Fin 256).val ∧
      ItemLegal (.station 62) ∧ ItemLegal (.silenceLimit 2) ∧ ItemLegal (.terminal 39 (.input 255 .urgent 15)) ∧
      ItemLegal (.pair 7 (some { drive := 0, detection := 39, limitTenths := 300 })) ∧
      ItemLegal (.line 3 (some { driveA := 0, driveB := 1, proving := 2, stepSeconds := 30, widthMs := 2000,
                                 spacingSeconds := 10, holdMinutes := 120 })) ∧
      LoadLegal { slot := 255, origin := 63, channel := 39, state := .any, dueKind := .relative 3600000, earlyMs := 600000,
                  lateMs := 600000, grade := 7, predecessor := some 0 } ∧
      LoadLegal { slot := 0, origin := 0, channel := 0, state := .off, earlyMs := 0, lateMs := 0, grade := 0
                  dueKind := .absolute { day := 65535, us := clock 23 59 59 999999 }, predecessor := none } ∧
      (List.replicate 71 (0 : Octet)).length ≤ 71 ∧ 71 < (List.replicate 72 (0 : Octet)).length ∧
      (0 : Octet).toNat = 0 ∧ 14 < (15 : Octet).toNat := by
  refine ⟨by decide, ?_⟩
  simp [ItemLegal, LoadLegal, clock, dayLength]

theorem witness_QualificationAndCorrectionSecondsEnd :
    let unqualified (n : Nat) : State := { State.reset with time := { timeBasePowerOn with elapsed := usSpan n } }
    (unqualified 4000).port.station = .notQualified ∧ 4000 ≤ (unqualified 4000).time.elapsed.toNat ∧
      (unqualified 3999).time.elapsed.toNat < 4000 ∧
      (∃ c : CorrectionSecond, station9.time.correction = some c ∧ c.index ≤ 1000000) ∧
      ∃ t : TimeBase, ∃ c, t.correction = some c ∧ 1000000 < c.index := by
  refine ⟨rfl, by decide, by decide, ⟨_, rfl, by decide⟩,
    ⟨{ station9.time with correction := some { total := 0, index := 1000001 } }, _, rfl, by decide⟩⟩

theorem timeBaseLegal_station9 : TimeBaseLegal station9.time :=
  ⟨by decide, by decide +kernel, by decide, by decide, by decide, by decide, by intro c h; cases h; decide⟩

/-- Qualified, and not; a line with a step period and one without; a correction second that runs. -/
theorem witness_CentreTimeAdvancesAndCarries :
    station9.pending = [] ∧ dueEvents station9 = [] ∧ TimeBaseLegal station9.time ∧ station9.time.qualified = true ∧
      station9.time.correction = some { total := 0, index := 1 } ∧ station9.port.image.lines[0] = none ∧
      ((clock9 310 .a 0).port.image.lines[1].map (·.stepSeconds)) = some 60 ∧
      State.reset.pending = [] ∧ dueEvents State.reset = [] ∧ TimeBaseLegal State.reset.time ∧
      State.reset.time.qualified = false :=
  ⟨rfl, by decide +kernel, timeBaseLegal_station9, rfl, rfl, rfl, by decide +kernel, rfl, by decide +kernel,
    ⟨by decide, by decide, by decide, by decide, by decide, by decide, by intro c h; cases h⟩, rfl⟩

theorem witness_CorrectionTotalIsSpreadExactly :
    (12800 : Int).natAbs ≤ 12800 ∧ (-12800 : Int).natAbs ≤ 12800 ∧ (500 : Int).natAbs ≤ 500 ∧ (-500 : Int).natAbs ≤ 500 := by
  decide

theorem witness_DatesDifferAndAddOnTheirCycle :
    let first : Date := { day := 0, us := 0 }
    let last : Date := { day := 65535, us := clock 23 59 59 999999 }
    first.day < 65536 ∧ first.us < 86400000000 ∧ last.day < 65536 ∧ last.us < 86400000000 ∧
      (-(32768 * 86400000000) : Int) ≤ 32768 * 86400000000 - 1 := by decide +kernel

/-- d of 1, 2, 500 and 501 in the settled time states, agreeing and disagreeing histories, and ACQUIRING. -/
theorem witness_DisciplineFollowsTheSizeOfTheOffset :
    (1 : Int).natAbs ≤ 1 ∧ 2 ≤ (-2 : Int).natAbs ∧ (-500 : Int).natAbs ≤ 500 ∧ 500 < (501 : Int).natAbs ∧
      settledTimeState station9.agreement.timeState = true ∧ station9.time.outliers = [] ∧
      500 < ((-900 : Int) - 2000).natAbs ∧ ((2500 : Int) - 2000).natAbs ≤ 500 ∧
      settledTimeState acquiring9.agreement.timeState = false ∧
      ({ station9.time with outliers := [2000] } : TimeBase).outliers = 2000 :: [] ∧
      ({ station9.time with outliers := [2000, 1980] } : TimeBase).outliers = 2000 :: 1980 :: [] := by decide

/-- No mark, CONFIG, an idle line, a TIME start mark 64 µs old on the line and one a microsecond older, a gap, and a
standing that does not contend; even and odd seconds. -/
theorem witness_SecondMarkClosesTheSecondAndContends :
    let s := markDue9 6 { station9 with agreement := { station9.agreement with withoutSource := 2 } }
    let joining := { s with line := { s.line with condition := .frame
                                                  leadIn := some { mark := some .time, start := 49999936, capture := some (stampNow s) } } }
    station9.time.markDue = none ∧ s.time.markDue = some 6 ∧ (markDue9 7 s).time.markDue = some 7 ∧
      (markDue9 6 inConfig9).port.station ≠ .run ∧
      s.port.station = .run ∧ closedCount s.agreement = 3 ∧ s.line.standing = .full ∧
      contendingTimeState s.agreement.timeState = true ∧ s.line.condition = .idle ∧ s.line.ownFrame = none ∧
      joining.line.condition = .frame ∧ elapsedSince joining.time.elapsed 49999936 = 64 ∧
      elapsedSince joining.time.elapsed 49999935 = 65 ∧ LineCondition.gap ≠ .idle ∧
      contendingTimeState acquiring9.agreement.timeState = false := by decide +kernel

/-- The fourth second without a source, and a holdover before and at its next grade. -/
theorem witness_HoldoverIsEnteredAndAges :
    let s := markDue9 7 { station9 with agreement := { station9.agreement with withoutSource := 3 } }
    let h : HoldoverEntry := { grade := 2, elapsed := 34000000 }
    s.port.station = .run ∧ s.time.markDue = some 7 ∧ s.agreement.timeState = .agreed ∧
      s.agreement.acceptedThisSecond = false ∧ 3 ≤ s.agreement.withoutSource ∧ station9.time.markDue = none ∧
      (3 : Nat) < min 13 (h.grade + 1 + elapsedSince station9.time.elapsed h.elapsed / 16000000) ∧
      min 13 (h.grade + 1 + elapsedSince (49999999 : Elapsed) h.elapsed / 16000000) ≤ 3 := by decide +kernel

/-- The silence timer and the reference at their points, and one microsecond before. -/
theorem witness_SilenceAndReferenceLossMoveTheTimeState :
    let a : Arming := { armedDate := { day := 21, us := 0 }, lastExpected := none, pulses := 1, lastPulse := 50000000 }
    let s := { acquiring9 with agreement := { acquiring9.agreement with arming := some a } }
    s.port.station = .run ∧ s.agreement.timeState = .acquiring ∧ s.agreement.silenceTimer = some 50000000 ∧
      reached (elapsed9 58000000 s).time.elapsed (50000000 + usSpan 8000000) = true ∧
      reached (elapsed9 57999999 s).time.elapsed (50000000 + usSpan 8000000) = false ∧ s.supply = .normal ∧
      s.agreement.arming = some a ∧
      reached (elapsed9 53000000 s).time.elapsed (a.lastPulse + usSpan 3000000) = true ∧
      reached (elapsed9 52999999 s).time.elapsed (a.lastPulse + usSpan 3000000) = false ∧
      s.agreement.timeState ≠ .referenced ∧ station9.agreement.arming = none := by decide +kernel

/-- A REFERENCE terminal wired and none, and the last µs of a day and the first past it. -/
theorem witness_SetTimeArmsTheReference :
    let day : List Octet := [0xFF, 0xFF] ++ beOctets 5 86399999999
    let past : List Octet := [0, 0] ++ beOctets 5 86400000000
    station9.port.station = .run ∧ day.length = 7 ∧ past.length = 7 ∧
      (∀ k : Fin 40, station9.port.image.terminals[k] ≠ .reference) ∧
      (withImage (fun i => { i with terminals := i.terminals.set 5 .reference }) station9).port.image.terminals[5] = .reference ∧
      (dateField day 0).day ≤ 65535 ∧ (dateField day 0).us ≤ 86399999999 ∧ 86399999999 < (dateField past 0).us := by
  decide +kernel

/-- Unarmed; a pulse 499 999 µs after the last, one 500 000 µs after it, and the first since SET TIME; no mark that waits,
and a mark that waits with an offset that steps. -/
theorem witness_ReferencePulseIsDatedAndDisciplines :
    let s := withImage (fun i => { i with terminals := i.terminals.set 5 .reference }) station9
    let a : Arming := { armedDate := { day := 21, us := 0 }, lastExpected := some { day := 21, us := 0 }, pulses := 1,
                        lastPulse := 49500001 }
    referenceTerminal s.port.image = some 5 ∧ s.port.station = .run ∧ s.agreement.arming = none ∧
      (elapsedSince s.time.elapsed a.lastPulse + 500000) / 1000000 = 0 ∧
      (elapsedSince s.time.elapsed (49500000 : Elapsed) + 500000) / 1000000 = 1 ∧ a.lastExpected.isSome = true ∧
      ({ a with lastExpected := none } : Arming).lastExpected = none ∧ s.time.markDue = none ∧
      (markDue9 6 s).time.markDue ≠ none ∧ (disciplineTime 501 .acquiring s.time).1 = .step := by decide +kernel

/-- A frame of station 4 whose start mark began 282 µs ago, at the grade of the station itself. -/
def capture9 : Stamp := { date := { day := 21, us := clock 21 16 5 399718 }, epoch := 12, timeState := .agreed }
def hearsTime9 : State :=
  { station9 with line := { station9.line with
      condition := .frame, leadIn := some { mark := some .time, start := 49999718, capture := some capture9 } } }
def timeFrameOf (rank : BitVec 4) (us : Nat) : TimeFrame := sealTime rank 4 { timeBody9 with us := BitVec.ofNat 37 us }

/-- FULL at score 0, and with a mark that waits. -/
theorem witness_HeardWinnerDisciplinesTheStation :
    let f := timeFrameOf 3 (clock 23 59 59 999999)
    hearsTime9.port.station = .run ∧ FrameCanEnd .time hearsTime9 ∧
      timeFrameGood f = true ∧
      hearsTime9.line.leadIn = some { mark := some .time, start := 49999718, capture := some capture9 } ∧
      peerOf f.origin hearsTime9 = some 3 ∧ takesLineSource hearsTime9.agreement.timeState = true ∧ f.rank.toNat = 3 ∧
      f.rank.toNat ≤ hearsTime9.agreement.grade ∧ referenceRunning hearsTime9.agreement = false ∧
      hearsTime9.time.epoch = capture9.epoch ∧ f.body.us.toNat < dayLength ∧ hearsTime9.line.remainder = none ∧
      hearsTime9.line.standing ≠ .withdrawn ∧ hearsTime9.line.score ≤ 192 ∧ hearsTime9.time.markDue = none ∧
      (markDue9 6 hearsTime9).time.markDue ≠ none := by
  refine ⟨rfl, ⟨by decide, rfl, ?_⟩, by decide +kernel⟩
  intro li h
  cases h
  exact .inl rfl

/-- A winner of grade 4, a frame without a capture, a frame of the own origin, and frames of origin 0 and 63. -/
theorem witness_DeclinedTimeFrameLeavesTheTimeAlone :
    let f := timeFrameOf 4 0
    hearsTime9.port.station = .run ∧ FrameCanEnd .time hearsTime9 ∧ timeFrameGood f = true ∧
      peerOf f.origin hearsTime9 = some 3 ∧ hearsTime9.line.leadIn.bind (·.capture) = some capture9 ∧
      lineSource f capture9 hearsTime9 = false ∧ station9.line.leadIn.bind (·.capture) = none ∧
      (9 : BitVec 6) = ownOrigin hearsTime9 ∧ (0 : BitVec 6) ≠ ownOrigin hearsTime9 ∧ (63 : BitVec 6) ≠ ownOrigin hearsTime9 ∧
      timeFrameGood (sealTime 2 9 timeBody9) = true ∧ timeFrameGood (sealTime 2 63 timeBody9) = true := by
  refine ⟨rfl, ⟨by decide, rfl, ?_⟩, by decide +kernel⟩
  intro li h
  cases h
  exact .inl rfl

theorem witness_GoodSecondsMoveTheTimeState :
    let settling : Agreement := { agreementReset with timeState := .acquiring, phase := some .settling, lineGood := 3
                                                      referenceGood := 3 }
    settling.timeState = .acquiring ∧ settling.phase = some .settling ∧ settling.lineGood = 3 ∧ settling.referenceGood = 3 ∧
      goodOutcome (.slew true) = true ∧ acceptedOutcome .step = true ∧ goodOutcome .step = false ∧
      station9.agreement.timeState = .agreed ∧ station9.agreement.referenceGood = 0 ∧
      ({ settling with timeState := .referenced } : Agreement).timeState = .referenced ∧ acquiring9.agreement.phase = some .searching ∧
      ({ settling with timeState := .selfTimed } : Agreement).timeState = .selfTimed ∧
      (takeOutcome 0 .line 2 (.slew false) settling).timeState = .acquiring ∧
      acquiring9.agreement.grade = 15 ∧ station23.agreement.timeState = .holdover := by decide

/-- The due point reached; WITHDRAWN; a PRESENCE item queued; 15 and 16 items; the point a microsecond ahead. -/
theorem witness_PresenceFallsDueIntoTheQueue :
    let it : TxItem := { rank := 0, body := .notice false noticeBody9, attempts := 0, eventSeq := none, order := 0, refreshed := false }
    let presence : TxItem := { it with body := .presence presenceBody9 }
    let queued (n : Nat) : List TxItem := List.replicate n it
    station9.port.station = .run ∧ reached station9.time.elapsed 50000000 = true ∧
      reached station9.time.elapsed 50000001 = false ∧ ([presence].any isPresenceItem) = true ∧
      (queued 15).any isPresenceItem = false ∧ (queued 15).length < 16 ∧ (queued 16).any isPresenceItem = false ∧
      16 ≤ (queued 16).length := by decide +kernel

/-- The last microsecond before the guard interval, and its first. -/
theorem witness_ReadyFrameBeginsOnAnIdleLine :
    let at_ (us : Nat) : State := atClock us station7
    (at_ 999499).port.station = .run ∧ (at_ 999499).line.txQueue ≠ [] ∧ (at_ 999499).line.condition = .idle ∧
      (at_ 999499).line.ownFrame = none ∧ (at_ 999499).time.date.us % 1000000 < 999500 ∧
      (at_ 999499).time.markDue = none ∧ (at_ 999499).line.standing ≠ .withdrawn ∧
      999500 ≤ (at_ 999500).time.date.us % 1000000 := by decide +kernel

/-- The first item of station 7 in flight, at scores 183 and 184, with 1 and 2 attempts used and 1 and 2 collisions; a
PRESENCE item that took a new body and one that did not; a TIME frame; and a station that has withdrawn. -/
theorem witness_OwnFrameOutcomesSettleItemAndScore :
    let s := after .beginReadyFrame station7
    let timed := after .secondMark (markDue9 7 station7)
    let presence (refreshed : Bool) : TxItem :=
      { rank := 0, body := .presence presenceBody9, attempts := 0, eventSeq := none, order := 0, refreshed := refreshed }
    s.port.station = .run ∧ s.line.standing ≠ .withdrawn ∧ s.line.score ≤ 191 ∧
      (s.line.ownFrame.map (·.owner)) = some (.queueItem 0) ∧ s.line.txQueue.length = 2 ∧
      (s.line.txQueue.map (·.order)) = [0, 1] ∧ (s.line.txQueue.map (·.eventSeq)) = [some 2210, some 2211] ∧
      (183 + 8 < 192 ∧ 192 ≤ 184 + 8) ∧ s.line.collisions < 2 ∧
      2 ≤ (after (.frameOutcome .collided) { s with line := { s.line with collisions := 1 } }).line.collisions ∧
      (timed.line.ownFrame.map (·.owner)) = some .agreement ∧ (presence true).refreshed = true ∧
      (presence false).refreshed = false ∧ (presence true).eventSeq = none ∧
      (withdrawal 192 s).line.standing = .withdrawn ∧ (withdrawal 192 s).line.ownFrame = s.line.ownFrame := by
  decide +kernel

/-- A notice heard before, and a new one that entry 1 offers; the own origin, 0 and 63; a good-frame run at 126 and 127. -/
theorem witness_ReceivedNoticeUpdatesItsHeardEntry :
    hears23.port.station = .run ∧ FrameCanEnd .short hears23 ∧
      (∃ a, hears23.port.image.acceptance[1] = some a ∧
        (∀ place < 6, a.originMask.getLsbD place = true →
          notice41.origin.getLsbD place = a.originValue.getLsbD place) ∧
        ∀ place < 6, a.channelMask.getLsbD place = true →
          notice41.body.channel.getLsbD place = a.channelValue.getLsbD place) ∧
      (∃ a, hears23.port.image.acceptance[0] = some a ∧ a.channelMask.getLsbD 3 = true ∧
        notice41.body.channel.getLsbD 3 ≠ a.channelValue.getLsbD 3) ∧
      noticeFrameGood notice41 = true ∧ peerOf notice41.origin hears23 = some 22 ∧
      ({ seq := 40, date := { day := 21, us := 0 }, epoch := 12 } : RecentNotice) ∈ (hears23.line.heard[22]).recent ∧
      recentOf notice41 ∉ (hears23.line.heard[22]).recent ∧
      decidingEntry notice41.origin notice41.body.channel hears23.port.image.acceptance = some 1 ∧
      (hears23.port.image.acceptance[1].map (·.offer)) = some true ∧ notice41.body.us.toNat < dayLength ∧
      (9 : BitVec 6) = ownOrigin hears23 ∧ (0 : BitVec 6) ≠ ownOrigin hears23 ∧
      noticeFrameGood (sealNotice false 2 9 noticeBody9) = true ∧ (126 + 1 < 128 ∧ 128 ≤ 127 + 1) := by
  refine ⟨rfl, ⟨by decide, rfl, ?_⟩, ⟨_, rfl, by decide +kernel, by decide +kernel⟩,
    ⟨_, rfl, by decide +kernel, by decide +kernel⟩, by decide +kernel⟩
  intro li h
  cases h

/-- Last notice sequences 43, 173, 44 and 172 before a PRESENCE that carries 44, and none; the own origin and 63. -/
theorem witness_ReceivedPresenceUpdatesItsHeardEntry :
    hears23.port.station = .run ∧ FrameCanEnd .short hears23 ∧
      presenceFrameGood presence44 = true ∧ peerOf presence44.origin hears23 = some 22 ∧
      ((presence44.body.lastSeq - 43).toNat, (presence44.body.lastSeq - 173).toNat) = (1, 127) ∧
      ((presence44.body.lastSeq - 44).toNat, (presence44.body.lastSeq - 172).toNat) = (0, 128) ∧
      heardNever.lastSeq = none ∧ (9 : BitVec 6) = ownOrigin hears23 ∧ (63 : BitVec 6) ≠ ownOrigin hears23 ∧
      presenceFrameGood (sealPresence 0 63 presenceBody9) = true := by
  refine ⟨rfl, ⟨by decide, rfl, ?_⟩, by decide +kernel⟩
  intro li h
  cases h

/-- Scores 190 and 191, WITHDRAWN, a remainder, and a station in CONFIG; frames whose check disagrees, and start marks that
fit and do not. -/
theorem witness_BadFrameIsScoredAndMayWithdraw :
    let s (score : Nat) (standing : Standing) : State :=
      { hearsTime9 with line := { hearsTime9.line with score := score, standing := standing } }
    hearsTime9.line.condition ≠ .awaitRecessive ∧ hearsTime9.line.ownFrame = none ∧ hearsTime9.line.remainder = none ∧
      hearsTime9.port.station = .run ∧ (s 190 .quiet).line.score + 1 < 192 ∧ (s 191 .quiet).line.score = 191 ∧
      (s 192 .withdrawn).line.standing = .withdrawn ∧ inConfig9.port.station = .config ∧
      inConfig9.line.condition ≠ .awaitRecessive ∧
      ({ hearsTime9.line with remainder := some .full } : LineController).remainder ≠ none ∧
      (hearsTime9.line.leadIn.bind (·.mark)) = some .time ∧ hears23.line.leadIn = none ∧
      ((after (.dominantLeadIn .short) station9).line.leadIn.bind (·.mark)) = some .short ∧
      timeFrameGood { sealTime 2 4 timeBody9 with rank := 3 } = false ∧
      noticeFrameGood { sealNotice false 2 4 noticeBody9 with urgent := true } = false ∧
      presenceFrameGood { sealPresence 0 4 presenceBody9 with origin := 5 } = false := by decide +kernel

/-- The expiry of origin 23 reached and a microsecond ahead, and good frames of its origin. -/
theorem witness_SilenceExpiryTurnsAnEntrySilent :
    HeardLegal station9.line ∧ completes station9 = true ∧ (hears23.line.heard[22]).silenceExpiry = some 55000000 ∧
      (hears23.line.heard[22]).presence = .present ∧ reached (55000000 : Elapsed) 55000000 = true ∧
      reached (54999999 : Elapsed) 55000000 = false ∧ (hears23.line.heard[0]).presence ≠ .present ∧
      hears23.line.condition ≠ .awaitRecessive ∧ hears23.line.ownFrame = none ∧ hears23.line.leadIn = none ∧
      timeFrameGood (sealTime 2 23 timeBody9) = true ∧ peerOf 23 hears23 = some 22 :=
  ⟨by unfold HeardLegal; decide +kernel, by decide +kernel, by decide +kernel⟩

theorem witness_LineFollowsLeadInsAndIdle :
    let s (c : LineCondition) : State := { station9 with line := { station9.line with condition := c } }
    (s .idle).line.condition = .idle ∧ (s .gap).line.condition = .gap ∧ (s .frame).line.condition = .frame ∧
      (s .awaitRecessive).line.condition = .awaitRecessive ∧ (s .gap).line.ownFrame = none ∧
      station9.port.station ≠ .notQualified := by decide

/-- The level unchanged, a first edge, the sixteenth bounce, and an edge that is no bounce; a proving terminal at and
before half of the width; the REFERENCE terminal OFF and ON; an UNUSED terminal. -/
theorem witness_EdgesOpenAndExtendBursts :
    let b : Burst := { stamp := stampNow points9, start := 49990000, latest := 49999000, bounces := 15, expiry := 50019000 }
    let i : InputState := { inputReset with proven := some false, level := true, burst := some b }
    let referenced := withImage (fun i => { i with terminals := i.terminals.set 5 .reference }) station9
    points9.port.image.terminals[14] = .input 20 .normal 2 ∧
      (∀ (j : Fin 4), points9.port.image.lines[j] = none) ∧ points9.port.station = .run ∧
      false = (points9.inputs[14]).level ∧ true ≠ (points9.inputs[14]).level ∧ (points9.inputs[14]).burst = none ∧
      i.proven = some false ∧ min 65535 (b.bounces + 1) % 16 = 0 ∧ i.proven ≠ some true ∧
      (pulsing9 0).port.image.lines[1].map (·.proving) = some 22 ∧ (pulsing9 0).clocks[1].pulse.isSome = true ∧
      elapsedSince (49500000 : Elapsed) 49000000 = 1000 * 1000 / 2 ∧ elapsedSince (49499999 : Elapsed) 49000000 < 1000 * 1000 / 2 ∧
      referenceTerminal referenced.port.image = some 5 ∧ referenced.pins.levels[5] = false ∧
      (putLevel 5 true referenced).pins.levels[5] = true ∧ station9.port.image.terminals[0] = .unused := by
  decide +kernel

/-- A burst that ends where it began, at its expiry and a microsecond before it. -/
theorem witness_DisturbanceClosesTheBurst :
    let s := edgeAt 800 false (edgeAt 0 true points9)
    s.port.station = .run ∧ isInput s.port.image.terminals[14] = true ∧ (s.inputs[15]).burst = none ∧
      ((s.inputs[14]).burst.map (·.expiry)) = some 50020800 ∧ reached (50020800 : Elapsed) 50020800 = true ∧
      reached (50020799 : Elapsed) 50020800 = false ∧ (s.inputs[14]).proven = some (s.inputs[14]).level := by decide +kernel

/-- A shared input with an empty queue, and at an occupancy of 507 and 508; WITHDRAWN and a full transmit queue; class NONE;
a burst dated in ACQUIRING; the input of a pair, and a limit already used. -/
theorem witness_ProvenChangeIsRecordedAndShared :
    burst14.port.station = .run ∧ burst14.port.image.terminals[14] = .input 20 .normal 2 ∧
      ((burst14.inputs[14]).burst.map (·.expiry)) = some 50024100 ∧ reached (50024100 : Elapsed) 50024100 = true ∧
      (burst14.inputs[14]).proven = some (!(burst14.inputs[14]).level) ∧ burst14.events.records = [] ∧
      burst14.events.lost = none ∧ burst14.line.standing ≠ .withdrawn ∧ burst14.line.txQueue.length < 16 ∧
      points9.port.image.terminals[15] = .input 30 .none 0 ∧
      (queueOf 507 600).records.length < 508 ∧ (∀ r ∈ (queueOf 507 600).records, r.seq ≠ (queueOf 507 600).nextSeq) ∧
      ¬ (queueOf 508 600).records.length < 508 ∧ ((burst14.inputs[14]).burst.map (·.stamp.timeState)) = some .agreed ∧
      (burst14.port.image.pairs[2].map fun c => (c.drive, c.detection)) = some (15, 14) ∧
      reached (50024100 : Elapsed) (50000000 + usSpan 100000) = false ∧
      reached (50124100 : Elapsed) (50000000 + usSpan 100000) = true := by decide +kernel

/-- A pair in each state, and a detection edge half the elapsed count after the start. -/
theorem witness_MovementPairsFollowTheirTable :
    let m : MovementStart := { stamp := stampNow points9, elapsed := 44000000 }
    (moving3 6000000 points9).pairs[2] = .moving m 50000000 ∧ (moving3 6000000 points9).port.station = .run ∧
      reached points9.time.elapsed 50000000 = true ∧ points9.pairs[2] = .idle ∧
      elapsedSince (44000000 + BitVec.ofNat 48 (2 ^ 47 - 1)) m.elapsed < 2 ^ 47 ∧
      2 ^ 47 ≤ elapsedSince (44000000 + BitVec.ofNat 48 (2 ^ 47)) m.elapsed := by decide +kernel

/-- Occupancies 507, 508, 511 and 512, and a tally. -/
theorem witness_OfferedRecordsAreAdmittedOrAccounted :
    (queueOf 507 0).records.length = 507 ∧ (queueOf 508 0).records.length = 508 ∧ (queueOf 511 0).records.length = 511 ∧
      (queueOf 512 0).records.length = 512 ∧ (queueOf 512 0).lost = none ∧
      isFieldClass (.chatter 0 16) = true ∧ isFieldClass (.timeStep { day := 0, us := 0 } { day := 0, us := 0 }) = false := by
  decide +kernel

theorem witness_TakeEventsRemovesTheOldest :
    station9.port.station = .run ∧ (0 : Octet).toNat = 0 ∧ 8 < (9 : Octet).toNat ∧ 1 ≤ (1 : Octet).toNat ∧
      (8 : Octet).toNat ≤ 8 ∧ station9.events.records = [] ∧ (queueOf 2 2).records ≠ [] ∧ (queueOf 2 2).lost = none := by
  decide +kernel

theorem witness_ReadsReturnTheirRecordAndChangeNothing :
    station9.port.station = .run ∧ (queueOf 2 2).records[field [0, 1] 0 2]?.isSome = true ∧
      (queueOf 2 2).records.length ≤ field [0, 2] 0 2 ∧ field [0, 255] 0 2 = (255 : Fin 256).val ∧ 255 < field [1, 0] 0 2 ∧
      (62 : Octet).toNat = (61 : Fin 62).val + 1 ∧ 62 < (63 : Octet).toNat := by decide +kernel

/-- Slot 11 ARMED at its miss deadline and a microsecond before; the OPEN item of slot 10; a pause. -/
theorem witness_DueItemsFireInListOrder :
    let d : Deadline := { date := { day := 21, us := clock 16 32 2 608331 }, slot := 11, kind := .miss }
    atMiss9.port.station = .run ∧ atMiss9.checker.deadlines = d :: [] ∧
      (atMiss9.checker.slots[d.slot].bind (·.dates)).isSome = true ∧ atMiss9.agreement.timeState ≠ .acquiring ∧
      dateDiff d.date atMiss9.time.date ≤ 0 ∧ 0 < dateDiff d.date { day := 21, us := clock 16 32 2 608330 } ∧
      d.kind ≠ .opening ∧ acquiring9.agreement.timeState = .acquiring := by decide +kernel

theorem witness_ChainsFollowTheirPredecessor :
    let c := (chain9 0 entry10 entry11 []).checker
    c.slots[11] = some entry11 ∧ entry11.status = .waiting ∧ entry11.predecessor = some 10 ∧ c.slots[12] = none := by
  decide +kernel

/-- Slots 256 and 255; a slot in use; a field out of range; each refusal of R131; a first status of each kind. -/
theorem witness_LoadEntryPlacesOrRefuses :
    let m : Matched := { origin := 9, date := { day := 21, us := clock 16 4 0 0 }, epoch := 12 }
    let s := chain9 (clock 16 5 0 0) { entry10 with status := .satisfied, matched := some m } entry11 []
    let f : LoadFields := { slot := 12, origin := 23, channel := 7, state := .on, dueKind := .relative 90000, earlyMs := 20000,
                            lateMs := 20000, grade := 5, predecessor := some 10 }
    s.port.station = .run ∧ load10.length = 27 ∧ field [1, 0] 0 2 = 256 ∧ s.checker.slots[10] ≠ none ∧
      s.checker.slots[12] = none ∧ loadFields 12 (loadOctets f) = some f ∧ loadFields 12 (List.replicate 27 255) = none ∧
      f.origin ≠ s.port.image.station ∧ dueDeadline s = none ∧
      s.checker.slots[10].map (·.status) = some .satisfied ∧ s.checker.slots[11].map (·.status) = some .waiting ∧
      dateDiff { day := 21, us := clock 16 5 0 0 } s.time.date ≤ 0 ∧
      ¬ dateDiff { day := 21, us := clock 16 5 0 1 } s.time.date ≤ 0 := by decide +kernel

theorem witness_CancelEntryEmptiesTheSlot :
    station9.port.station = .run ∧ ([0, 10] : List Octet).length = 2 ∧ 255 < field [1, 0] 0 2 ∧
      field [0, 10] 0 2 = (10 : Fin 256).val ∧ station9.checker.slots[10] = none ∧
      (chain9 0 entry10 entry11 []).checker.slots[10] ≠ none := by decide +kernel

/-- An observation at the opening of the one ARMED entry, one at the end of the window of the one MISSED entry, one that
meets none, and one dated in ACQUIRING. -/
theorem witness_ObservationSatisfiesOrClearsOneEntry :
    let o : Observation := { own := false, origin := 23, channel := 7, state := true, epoch := 12, timeState := .agreed
                             date := { day := 21, us := clock 16 21 22 408331 } }
    let e := entry11At .armed
    let c : Checker := { checkerReset with slots := checkerReset.slots.set 11 (some e) }
    c.slots[11] = some e ∧ e.status = .armed ∧ o.own = false ∧ o.origin = e.origin ∧ o.channel = e.channel ∧ e.state = .on ∧
      o.state = true ∧ (e.dates.map fun d => dateDiff d.opening o.date) = some 0 ∧
      (∀ j : Fin 256, j ≠ 11 → c.slots[j] = none) ∧
      dateDiff { day := 21, us := clock 16 32 2 408331 } (dateAdd { day := 21, us := clock 16 31 42 408331 } 20000000) = 0 ∧
      (entry11At .missed).status = .missed ∧ o.timeState ≠ .acquiring := by decide +kernel

/-- 63 records, 64 with a lower last grade and 64 without. -/
theorem witness_DeviationsAreMadeAndPlacedByGrade :
    let full := station23.report.deviations ++ [heldDeviation 163 1]
    station23.report.deviations.length < 64 ∧ station23.report.deviations.Pairwise (fun a b => b.grade ≤ a.grade) ∧
      64 ≤ full.length ∧ full.getLast?.map (·.grade) = some 1 ∧ (heldDeviation 163 1).grade < (gradedEntry 2).grade ∧
      (gradedEntry 1).grade ≤ (heldDeviation 163 1).grade := by decide +kernel

theorem witness_UrgentConditionsLatchAndClear :
    (station9.report.urgent[urgentIndex .eventLoss]).flag = false ∧
      ((raiseUrgentNow .eventLoss station9).report.urgent[urgentIndex .eventLoss]).flag = true ∧
      station9.port.station = .run ∧ 128 ≤ (128 : Octet).toNat ∧ (127 : Octet).toNat < 128 ∧
      station9.report.deviations = [] ∧ station23.report.deviations ≠ [] := by decide +kernel

theorem witness_SupplySuspendsAndResumesTheLines :
    State.reset.port.station = .notQualified ∧ station9.port.station ≠ .notQualified ∧
      (Supply.reduced = .reduced ∨ station9.agreement.timeState = .notStarted) ∧
      ¬ (Supply.normal = .reduced ∨ station9.agreement.timeState = .notStarted ∨ station9.agreement.timeState = .acquiring) := by
  decide

/-- The hands at the target, one step and 60 steps ahead, 61 steps ahead, and 1 µs short of the spacing. -/
theorem witness_PulsesStartByLagHoldAndSpacing :
    let s := atClock (clock 1 0 2 0) (clock9 60 .a 2000000)
    s.port.station = .run ∧ (s.port.image.lines[1].map fun c => (c.stepSeconds, c.holdMinutes * 60 / c.stepSeconds)) = some (60, 60) ∧
      s.clocks[1].state = .active ∧ s.clocks[1].pulse = none ∧ s.clocks[1].dial = some 60 ∧ 60 < 43200 / 60 ∧
      s.time.date.us % 43200000000 / 60000000 = 60 ∧ (61 + 720 - 60) % 720 = 1 ∧ (120 + 720 - 60) % 720 = 60 ∧
      (121 + 720 - 60) % 720 = 61 ∧ elapsedSince s.time.elapsed 48000000 = 2 * 1000000 ∧
      elapsedSince s.time.elapsed 48000001 < 2 * 1000000 ∧ s.port.image.lines[0] = none ∧
      (pulsing9 0).clocks[1].pulse ≠ none := by decide +kernel

theorem witness_PulseEndsProvenOrUnproven :
    (clock9 310 .a 0).clocks[1].pulse = none ∧ (pulsing9 1).clocks[1].pulse = some { start := 49000000, polarity := .a, seenOn := false } ∧
      reached (pulsing9 1).time.elapsed (49000000 + usSpan (1000 * 1000)) = true ∧
      reached (49999999 : Elapsed) (49000000 + usSpan (1000 * 1000)) = false ∧
      (putLevel 22 true (pulsing9 1)).pins.levels[22] = true ∧ (pulsing9 1).pins.levels[22] = false ∧
      (pulsing9 1).clocks[1].unproven < 2 ∧ (pulsing9 2).clocks[1].unproven = 2 := by decide +kernel

theorem witness_SetDialPlacesTheHands :
    (clock9 310 .a 0).port.station = .run ∧ 4 < (5 : Octet).toNat ∧ (4 : Octet).toNat = (3 : Fin 4).val + 1 ∧
      (clock9 310 .a 0).port.image.lines[3] = none ∧ (pulsing9 0).clocks[1].pulse ≠ none ∧
      43200 / 60 ≤ field [2, 2, 0xD0] 1 2 ∧ field [2, 2, 0xCF] 1 2 < 43200 / 60 ∧
      (clock9 310 .a 0).clocks[1].pulse = none ∧ (clock9 310 .a 0).clocks[1].state = .active := by decide +kernel

/-- A good frame of each kind, and the two NOTICE kinds of one body. -/
theorem witness_CheckDetectsASingleWrongBit :
    timeFrameGood (sealTime 2 4 timeBody9) = true ∧ noticeFrameGood (sealNotice true 2 4 noticeBody9) = true ∧
      noticeFrameGood (sealNotice false 2 4 noticeBody9) = true ∧
      presenceFrameGood (sealPresence 0 4 presenceBody9) = true := by decide +kernel

/-! The invariants, at a state that takes a step. -/

theorem witness_StepKeepsTheTimeBaseLegal : TimeBaseLegal station9.time ∧ completes station9 = true :=
  ⟨timeBaseLegal_station9, by decide +kernel⟩

theorem stationLegal_station9 : StationLegal station9 := by unfold StationLegal; decide

theorem imageLegal_station9 : ImageLegal station9.port.image := by
  refine ⟨by decide, by decide, by decide, by decide, by decide, by decide, by decide, by decide, ?_, ?_, ?_, ?_⟩ <;>
    intro k <;> simp [station9, servicePortPowerOn, imageDefault, ItemLegal]

theorem witness_StepKeepsStationGradeAndConfiguration :
    StationLegal station9 ∧ GradeLegal station9.agreement ∧ ConfigurationLegal station9 ∧ completes station9 = true :=
  ⟨stationLegal_station9, rfl, ⟨imageLegal_station9, fun _ => allPass (by decide +kernel)⟩, by decide +kernel⟩

theorem witness_StepKeepsQueueAndStanding :
    TransmitQueueLegal station7.line ∧ StandingLegal station7.line ∧ completes station7 = true :=
  ⟨by unfold TransmitQueueLegal; unfold queuedBefore; decide +kernel, by unfold StandingLegal; decide, by decide +kernel⟩

theorem witness_StepKeepsTheEventQueueLegal :
    EventQueueLegal (queueOf 512 0) ∧ completes { station9 with events := queueOf 512 0 } = true :=
  ⟨⟨by decide +kernel, by intro l h; cases h⟩, by decide +kernel⟩

/-- The dates of an entry pass a test; and the test that they lie in the half cycle that begins at a date. -/
def datesPass (p : EntryDates → Bool) : Option CheckEntry → Bool
  | some e => e.dates.all p
  | none => true
def withinHalfCycle (base : Date) (d : EntryDates) : Bool :=
  decide (0 ≤ dateDiff d.opening base) && decide (0 ≤ dateDiff d.missDeadline base)

theorem datesPass_some (p : EntryDates → Bool) {slot : Option CheckEntry} {e : CheckEntry} {d : EntryDates}
    (hs : slot = some e) (hd : e.dates = some d) (h : datesPass p slot = true) : p d = true := by
  subst hs
  simpa [datesPass, hd] using h

theorem datesWithin_of_all (base : Date) (c d : Checker)
    (h : ∀ slot : Fin 256, datesPass (withinHalfCycle base) c.slots[slot] = true ∧
      datesPass (withinHalfCycle base) d.slots[slot] = true) : DatesWithinHalfCycle base c d := by
  intro slot e dates hs hd
  have hp : withinHalfCycle base dates = true := hs.elim
    (fun hs => datesPass_some (withinHalfCycle base) hs.1 hd (h slot).1)
    (fun hs => datesPass_some (withinHalfCycle base) hs.1 hd (h slot).2)
  unfold withinHalfCycle at hp
  rw [Bool.and_eq_true] at hp
  exact ⟨of_decide_eq_true hp.1, of_decide_eq_true hp.2⟩

/-- A MISS_FIRE at the miss of slot 11: the dates before and after it lie in one half cycle. -/
theorem witness_StepKeepsTheDeadlineListLegal :
    let s : State := { atMiss9 with pending := [.missFire] }
    DeadlinesLegal s.checker ∧ completes s = true ∧ DeadlinesOrdered s.checker ∧
      (stepped s).checker.deadlines ≠ s.checker.deadlines ∧
      DatesWithinHalfCycle { day := 21, us := 0 } s.checker (stepped s).checker :=
  ⟨by unfold DeadlinesLegal; decide +kernel, by decide +kernel, by unfold DeadlinesOrdered; decide +kernel,
    by decide +kernel, datesWithin_of_all _ _ _ (by decide +kernel)⟩

theorem witness_StepKeepsDeviationsAndAttention :
    AttentionLegal station23 ∧ DeviationsLegal station23.report ∧ completes station23 = true :=
  ⟨by unfold AttentionLegal; decide +kernel, by unfold DeviationsLegal; decide +kernel, by decide +kernel⟩

theorem witness_StepKeepsTheClockLinesLegal :
    StationLegal (pulsing9 1) ∧ ClocksLegal (pulsing9 1) ∧ SuspensionLegal (pulsing9 1) ∧ completes (pulsing9 1) = true :=
  ⟨by unfold StationLegal; decide, by unfold ClocksLegal ClockLineLegal; decide +kernel,
    by unfold SuspensionLegal; decide +kernel, by decide +kernel⟩

end Sys2Proof.Tests
end

/-! # What a command can do to time base, agreement controller and timetable checker

Every command but six changes these blocks by elementary moves. The moves are listed here once, and each invariant is
proved for each move once. -/

namespace Sys2Proof.Machine

/-! ## The moves of the time base and of the agreement controller -/

/-- One change of the time base that leaves its qualification as it is. -/
inductive TimeMove (t : TimeBase) : TimeBase → Prop
  | markTaken : TimeMove t { t with markDue := none }
  | boundaryTaken (line : Fin 4) : TimeMove t { t with boundaryDue := t.boundaryDue.set line false }
  | correctionEnds : TimeMove t (nextCorrection t)
  | disciplined (d : Int) (ts : TimeState) : TimeMove t (disciplineTime d ts t).2
  | advanced (lines : Vector (Option ClockConfig) 4) : TimeMove t (advanceTimeBase lines t)

/-- One change of the agreement controller of a station that stays in RUN, or stays outside it. -/
inductive AgreementMove (a : Agreement) : Agreement → Prop
  | silenceRestarts (now : Elapsed) : AgreementMove a (restartSilence now a)
  | outcomeTaken (now : Elapsed) (kind : SourceKind) (grade : Nat) (o : Outcome) :
      AgreementMove a (takeOutcome now kind grade o a)
  | secondCloses (n : Nat) : AgreementMove a { a with withoutSource := n, acceptedThisSecond := false }
  | holdoverEntered (h : a.timeState ≠ .notStarted) (grade : Nat) (now : Elapsed) :
      AgreementMove a { a with
        timeState := .holdover
        grade := holdoverGrade grade 0
        withoutSource := 0
        holdover := some { grade := grade, elapsed := now } }
  | aged (h : a.timeState = .holdover) {entry : HoldoverEntry} (he : a.holdover = some entry) (us : Nat) :
      AgreementMove a { a with grade := holdoverGrade entry.grade us }
  | selfTimed (h : a.timeState = .acquiring) : AgreementMove a (becomeSelfTimed a)
  | armed (arming : Option Arming) (n : Nat) : AgreementMove a { a with arming := arming, referenceGood := n }

/-! ## The time base's moves keep its ranges -/

theorem newCorrection_legal {trim slew : Int} (ht : trim.natAbs ≤ 12800) (hs : slew.natAbs ≤ 500) :
    (newCorrection trim slew).total.natAbs ≤ 44800 ∧ 1 ≤ (newCorrection trim slew).index := by
  simp only [newCorrection]
  omega

theorem dateAdd_legal (d : Date) (n : Int) : (dateAdd d n).day < 65536 ∧ (dateAdd d n).us < dayLength := by
  obtain ⟨-, -, hday, hus⟩ := dateAdd_linear d n
  exact ⟨hday, hus⟩

theorem clampTrim_natAbs (f : Int) : (clampTrim f).natAbs ≤ 12800 := by
  unfold clampTrim
  omega

theorem slewBy_legal {d : Int} {t : TimeBase} (hd : d.natAbs ≤ 500) (h : TimeBaseLegal t) :
    TimeBaseLegal (slewBy d t) := by
  obtain ⟨hday, hus, hfraction, -, -, -, -⟩ := h
  have htrim := clampTrim_natAbs (t.trim + 8 * d)
  refine ⟨hday, hus, hfraction, htrim, hd, by simp [slewBy], ?_⟩
  rintro c ⟨⟩
  exact newCorrection_legal htrim hd

theorem stepBy_legal {t : TimeBase} (d : Int) (h : TimeBaseLegal t) : TimeBaseLegal (stepBy d t) := by
  obtain ⟨-, -, -, htrim, -, -, -⟩ := h
  obtain ⟨hday, hus⟩ := dateAdd_legal t.date d
  refine ⟨hday, hus, by simp [stepBy], htrim, by simp [stepBy], by simp [stepBy], ?_⟩
  rintro c ⟨⟩
  exact newCorrection_legal htrim (by simp)

/-- Another outlier history that holds at most two offsets. -/
theorem withOutliers_legal {t : TimeBase} {l : List Int} (hl : l.length ≤ 2) (h : TimeBaseLegal t) :
    TimeBaseLegal { t with outliers := l } := by
  obtain ⟨hday, hus, hfraction, htrim, hslew, -, hcorrection⟩ := h
  exact ⟨hday, hus, hfraction, htrim, hslew, hl, hcorrection⟩

theorem meetOutlier_legal {t : TimeBase} (d : Int) (h : TimeBaseLegal t) : TimeBaseLegal (meetOutlier d t).2 := by
  unfold meetOutlier
  split
  · exact withOutliers_legal (by simp) h
  · split_ifs
    · exact withOutliers_legal (by simp) h
    · exact stepBy_legal d h
    · exact withOutliers_legal (by simp) h

theorem disciplineTime_legal {t : TimeBase} (d : Int) (ts : TimeState) (h : TimeBaseLegal t) :
    TimeBaseLegal (disciplineTime d ts t).2 := by
  unfold disciplineTime
  split_ifs with _ hd
  · exact withOutliers_legal (by simp) h
  · exact slewBy_legal hd h
  · exact meetOutlier_legal d h
  · exact stepBy_legal d h

theorem nextCorrection_legal {t : TimeBase} (h : TimeBaseLegal t) : TimeBaseLegal (nextCorrection t) := by
  obtain ⟨hday, hus, hfraction, htrim, -, houtliers, -⟩ := h
  refine ⟨hday, hus, hfraction, htrim, by simp [nextCorrection], houtliers, ?_⟩
  rintro c ⟨⟩
  exact newCorrection_legal htrim (by simp)

/-- The share of one microsecond is at most one sixty-fourth (R8). -/
theorem comingShare_cases (t : TimeBase) : comingShare t = -1 ∨ comingShare t = 0 ∨ comingShare t = 1 := by
  unfold comingShare correctionShare
  split
  · split_ifs <;> simp
  · simp

/-- One microsecond carries at most two microseconds into the microseconds of day (R4). -/
theorem advancedUs_le {t : TimeBase} (h : t.fraction < 64) : advancedUs t ≤ t.date.us + 2 := by
  have := comingShare_cases t
  unfold advancedUs advancedFraction
  omega

theorem carryDay_legal {day us : Nat} (hday : day < 65536) (hus : us < 2 * dayLength) :
    (carryDay day us).day < 65536 ∧ (carryDay day us).us < dayLength := by
  unfold carryDay
  split_ifs with h
  · exact ⟨Nat.mod_lt _ (by norm_num), by dsimp only; omega⟩
  · exact ⟨hday, by dsimp only; omega⟩

theorem advanceCentreTime_legal {t : TimeBase} (lines : Vector (Option ClockConfig) 4) (h : TimeBaseLegal t) :
    TimeBaseLegal (advanceCentreTime lines t) := by
  obtain ⟨hday, hus, hfraction, htrim, hslew, houtliers, hcorrection⟩ := h
  have hle := advancedUs_le hfraction
  have hlength : dayLength = 86400000000 := rfl
  obtain ⟨hday', hus'⟩ := carryDay_legal (us := advancedUs t) hday (by omega)
  refine ⟨hday', hus', Nat.mod_lt _ (by norm_num), htrim, hslew, houtliers, ?_⟩
  intro c hc
  obtain ⟨before, hbefore, rfl⟩ := Option.map_eq_some_iff.mp hc
  exact ⟨(hcorrection before hbefore).1, Nat.le_add_left 1 before.index⟩

theorem advanceTimeBase_legal {t : TimeBase} (lines : Vector (Option ClockConfig) 4) (h : TimeBaseLegal t) :
    TimeBaseLegal (advanceTimeBase lines t) := by
  unfold advanceTimeBase
  dsimp only
  split_ifs
  · exact advanceCentreTime_legal lines h
  · exact h

theorem TimeMove.legal {t u : TimeBase} (m : TimeMove t u) (h : TimeBaseLegal t) : TimeBaseLegal u := by
  cases m with
  | markTaken => exact h
  | boundaryTaken line => exact h
  | correctionEnds => exact nextCorrection_legal h
  | disciplined d ts => exact disciplineTime_legal d ts h
  | advanced lines => exact advanceTimeBase_legal lines h

theorem TimeMove.qualified {t u : TimeBase} (m : TimeMove t u) : u.qualified = t.qualified := by
  cases m with
  | markTaken | boundaryTaken | correctionEnds => rfl
  | disciplined d ts => exact (disciplineTime_rest d ts t).1
  | advanced lines =>
    unfold advanceTimeBase
    dsimp only
    split_ifs <;> rfl

theorem qualificationEnd_legal {t : TimeBase} (h : TimeBaseLegal t) :
    TimeBaseLegal { t with qualified := true, correction := some (newCorrection t.trim t.slew) } := by
  obtain ⟨hday, hus, hfraction, htrim, hslew, houtliers, -⟩ := h
  refine ⟨hday, hus, hfraction, htrim, hslew, houtliers, ?_⟩
  rintro c ⟨⟩
  exact newCorrection_legal htrim hslew

theorem timeAfterRestart_legal {t : TimeBase} (h : TimeBaseLegal t) : TimeBaseLegal (timeAfterRestart t) := by
  obtain ⟨hday, hus, hfraction, htrim, -, -, -⟩ := h
  refine ⟨hday, hus, hfraction, htrim, by simp [timeAfterRestart], by simp [timeAfterRestart], ?_⟩
  rintro c ⟨⟩
  exact newCorrection_legal htrim (by simp)

theorem timeBasePowerOn_legal : TimeBaseLegal timeBasePowerOn := by
  refine ⟨?_, ?_, ?_, ?_, ?_, ?_, ?_⟩ <;> simp [timeBasePowerOn, dayLength]

/-! ## The agreement controller's moves keep grade and start -/

theorem gradeLegal_iff_of_rest {a b : Agreement} (h1 : b.timeState = a.timeState) (h2 : b.grade = a.grade)
    (h3 : b.sourceGrade = a.sourceGrade) (h4 : b.holdover = a.holdover) : GradeLegal b ↔ GradeLegal a := by
  unfold GradeLegal
  rw [h1, h2, h3, h4]

/-- Outside AGREED the source grade does not bear on the grade (R47). -/
theorem GradeLegal.of_not_agreed {a b : Agreement} (ha : a.timeState ≠ .agreed) (h1 : b.timeState = a.timeState)
    (h2 : b.grade = a.grade) (h4 : b.holdover = a.holdover) (h : GradeLegal a) : GradeLegal b := by
  unfold GradeLegal at *
  rw [h1, h2, h4]
  cases hts : a.timeState <;> simp_all

theorem becomeAgreed_gradeLegal {a : Agreement} {grade : Nat} (h : a.sourceGrade = some grade) :
    GradeLegal (becomeAgreed grade a) := by
  simp [GradeLegal, becomeAgreed, h]

theorem becomeReferenced_gradeLegal (a : Agreement) : GradeLegal (becomeReferenced a) := by
  simp [GradeLegal, becomeReferenced]

/-- The counts bear on the good seconds alone (R50). -/
@[simp] theorem countOutcome_rest (kind : SourceKind) (o : Outcome) (a : Agreement) :
    (countOutcome kind o a).timeState = a.timeState ∧ (countOutcome kind o a).grade = a.grade ∧
    (countOutcome kind o a).sourceGrade = a.sourceGrade ∧ (countOutcome kind o a).holdover = a.holdover := by
  unfold countOutcome
  split <;> simp

/-- Whether an accepted offset leads to SETTLING (R56, R59), the station's start is not touched. -/
theorem enterSettling_notStarted (now : Elapsed) (a : Agreement) :
    (enterSettling now a).timeState = .notStarted ↔ a.timeState = .notStarted := by
  unfold enterSettling
  split_ifs with h1 h2
  · simp [h1]
  · simp
  · simp

theorem enterSettling_gradeLegal (now : Elapsed) {a : Agreement} (h : GradeLegal a) :
    GradeLegal (enterSettling now a) := by
  unfold enterSettling
  split_ifs
  · simp [GradeLegal]
  · exact h
  · exact h

/-- An accepted outcome leaves the time state, follows the source's grade in AGREED, or moves the station to AGREED or
REFERENCED (R56 to R63). -/
theorem moveTimeState_cases (kind : SourceKind) (grade : Nat) (o : Outcome) (a : Agreement) :
    (a.timeState ≠ .agreed ∧ moveTimeState kind grade o a = a) ∨
    (a.timeState = .agreed ∧ moveTimeState kind grade o a = { a with grade := agreedGrade grade }) ∨
    (a.timeState ≠ .notStarted ∧
      (moveTimeState kind grade o a = becomeAgreed grade a ∨ moveTimeState kind grade o a = becomeReferenced a)) := by
  unfold moveTimeState
  dsimp only
  split
  · next hts =>
    split_ifs
    · exact .inr (.inr ⟨by simp [hts], .inl rfl⟩)
    · exact .inl ⟨by simp [hts], rfl⟩
  · next hts =>
    split_ifs
    · exact .inr (.inr ⟨by simp [hts], .inr rfl⟩)
    · exact .inl ⟨by simp [hts], rfl⟩
  · next hts => exact .inr (.inl ⟨hts, rfl⟩)
  · next hts =>
    split_ifs
    · exact .inr (.inr ⟨by simp [hts], .inr rfl⟩)
    · exact .inr (.inl ⟨hts, rfl⟩)
  · next hts => exact .inr (.inr ⟨by simp [hts], .inl rfl⟩)
  · next hts => exact .inl ⟨by simp [hts], rfl⟩
  · next hts => exact .inl ⟨by simp [hts], rfl⟩
  · next hts => exact .inl ⟨by simp [hts], rfl⟩

theorem moveTimeState_notStarted (kind : SourceKind) (grade : Nat) (o : Outcome) (a : Agreement) :
    (moveTimeState kind grade o a).timeState = .notStarted ↔ a.timeState = .notStarted := by
  rcases moveTimeState_cases kind grade o a with ⟨-, h⟩ | ⟨-, h⟩ | ⟨hts, h | h⟩ <;> rw [h]
  · simp [becomeAgreed, hts]
  · simp [becomeReferenced, hts]

/-- The grade that an accepted offset brings is that of the source now in force (R47, R57, R62, R63). -/
theorem moveTimeState_gradeLegal {kind : SourceKind} {grade : Nat} {o : Outcome} {a : Agreement}
    (hs : a.sourceGrade = some grade) (h : a.timeState ≠ .agreed → GradeLegal a) :
    GradeLegal (moveTimeState kind grade o a) := by
  rcases moveTimeState_cases kind grade o a with ⟨hts, heq⟩ | ⟨hts, heq⟩ | ⟨-, heq | heq⟩ <;> rw [heq]
  · exact h hts
  · simp [GradeLegal, hts, hs]
  · exact becomeAgreed_gradeLegal hs
  · exact becomeReferenced_gradeLegal a

theorem takeOutcome_notStarted (now : Elapsed) (kind : SourceKind) (grade : Nat) (o : Outcome) (a : Agreement) :
    (takeOutcome now kind grade o a).timeState = .notStarted ↔ a.timeState = .notStarted := by
  unfold takeOutcome
  split_ifs
  · simp [moveTimeState_notStarted, enterSettling_notStarted]
  · simp

theorem takeOutcome_gradeLegal (now : Elapsed) (kind : SourceKind) (grade : Nat) (o : Outcome) {a : Agreement}
    (h : GradeLegal a) : GradeLegal (takeOutcome now kind grade o a) := by
  unfold takeOutcome
  split_ifs
  · refine moveTimeState_gradeLegal rfl fun hts => ?_
    exact (enterSettling_gradeLegal now h).of_not_agreed (by simpa using hts) (by simp) (by simp) (by simp)
  · exact (gradeLegal_iff_of_rest (by simp) (by simp) (by simp) (by simp)).mpr h

theorem AgreementMove.notStarted {a b : Agreement} (m : AgreementMove a b) :
    b.timeState = .notStarted ↔ a.timeState = .notStarted := by
  cases m with
  | silenceRestarts now => simp
  | outcomeTaken now kind grade o => exact takeOutcome_notStarted now kind grade o a
  | secondCloses n => exact Iff.rfl
  | holdoverEntered h grade now => simp [h]
  | aged h he us => exact Iff.rfl
  | selfTimed h => simp [becomeSelfTimed, h]
  | armed arming n => exact Iff.rfl

theorem AgreementMove.gradeLegal {a b : Agreement} (m : AgreementMove a b) (h : GradeLegal a) : GradeLegal b := by
  cases m with
  | silenceRestarts now => exact (gradeLegal_iff_of_rest (by simp) (by simp) (by simp) (by simp)).mpr h
  | outcomeTaken now kind grade o => exact takeOutcome_gradeLegal now kind grade o h
  | secondCloses n => exact h
  | holdoverEntered _ grade now => simp [GradeLegal, holdoverGrade]
  | aged hts he us =>
    simp only [GradeLegal, hts, he, holdoverGrade]
    exact ⟨_, rfl, by omega, by omega⟩
  | selfTimed _ => simp [GradeLegal, becomeSelfTimed]
  | armed arming n => exact h

end Sys2Proof.Machine

/-! # The timetable checker: one change of an entry with its items

Firing, matching, clearing, releasing, voiding and loading each set one entry and give its slot the items that the entry
calls for. What follows is proved of that one change. -/

namespace Sys2Proof.Machine

/-! ## The list with one item more or less, and a table with one place set -/

/-- A table keeps what holds of each place when a place takes a value of which it holds. -/
theorem forall_set {α : Type} {n : Nat} {p : Fin n → α → Prop} {v : Vector α n} {i : Fin n} {x : α} (hx : p i x)
    (h : ∀ j : Fin n, p j v[j]) (j : Fin n) : p j (v.set i x)[j] := by
  by_cases hj : i = j
  · subst hj
    simpa using hx
  · have hne : (i : Nat) ≠ j := fun he => hj (Fin.ext he)
    simpa [Vector.getElem_set_ne, hne] using h j

theorem insertDeadline_filter_of_not {p : Deadline → Bool} {d : Deadline} (hd : p d = false) (l : List Deadline) :
    (insertDeadline d l).filter p = l.filter p := by
  induction l with
  | nil => simp [insertDeadline, hd]
  | cons e rest ih =>
    unfold insertDeadline
    split
    · simp [hd]
    · simp [List.filter_cons, ih]

theorem insertDeadline_filter_of_only {p : Deadline → Bool} {d : Deadline} {l : List Deadline} (hd : p d = true)
    (hl : l.filter p = []) : (insertDeadline d l).filter p = [d] := by
  have hp := (insertDeadline_perm d l).filter p
  rw [List.filter_cons_of_pos hd, hl] at hp
  exact List.perm_singleton.mp hp

theorem removeDeadline_of_absent {slot : Fin 256} {l : List Deadline} (h : (l.filter fun d => d.slot == slot) = []) :
    removeDeadline slot l = l := by
  unfold removeDeadline
  rw [List.filter_eq_self]
  intro d hd
  simpa using List.filter_eq_nil_iff.mp h d hd

/-- The head removed is the item of its slot removed, where the slot has no other. -/
theorem removeDeadline_head {d : Deadline} {rest : List Deadline}
    (h : ((d :: rest).filter fun e => e.slot == d.slot) = [d]) : removeDeadline d.slot (d :: rest) = rest := by
  rw [List.filter_cons_of_pos (by simp), List.cons.injEq] at h
  have hrest := removeDeadline_of_absent h.2
  unfold removeDeadline at hrest ⊢
  rw [List.filter_cons_of_neg (by simp), hrest]

theorem removeDeadline_filter_same (slot : Fin 256) (l : List Deadline) :
    (removeDeadline slot l).filter (fun d => d.slot == slot) = [] := by
  simp [removeDeadline, List.filter_filter]

theorem removeDeadline_filter_ne {slot j : Fin 256} (h : j ≠ slot) (l : List Deadline) :
    (removeDeadline slot l).filter (fun d => d.slot == j) = l.filter fun d => d.slot == j := by
  unfold removeDeadline
  rw [List.filter_filter]
  refine List.filter_congr fun d _ => ?_
  by_cases hd : d.slot = j <;> simp [hd, h]

/-! ## An entry set with its items -/

/-- An entry set in its slot, and the items of the slot replaced by those that the entry calls for (R136). -/
def setEntry (slot : Fin 256) (e : Option CheckEntry) (c : Checker) : Checker :=
  { c with
    slots := c.slots.set slot e
    deadlines := (itemsCalled slot e).foldr insertDeadline (removeDeadline slot c.deadlines) }

/-- An entry calls for no item, or for one of its own slot, dated by its dates. -/
theorem itemsCalled_cases (slot : Fin 256) (e : Option CheckEntry) :
    itemsCalled slot e = [] ∨ ∃ (d : Deadline) (entry : CheckEntry) (dates : EntryDates), itemsCalled slot e = [d] ∧
      d.slot = slot ∧ e = some entry ∧ (entry.status = .pending ∨ entry.status = .armed) ∧ entry.dates = some dates ∧
      (d.date = dates.opening ∨ d.date = dates.missDeadline) := by
  unfold itemsCalled
  split
  · split
    · next h1 h2 => exact .inr ⟨_, _, _, rfl, rfl, rfl, .inl h1, h2, .inl rfl⟩
    · next h1 h2 => exact .inr ⟨_, _, _, rfl, rfl, rfl, .inr h1, h2, .inr rfl⟩
    · exact .inl rfl
  · exact .inl rfl

theorem setEntry_slots (slot j : Fin 256) (e : Option CheckEntry) (c : Checker) :
    (setEntry slot e c).slots[j] = if j = slot then e else c.slots[j] := by
  by_cases h : j = slot
  · subst h; simp [setEntry]
  · have hne : (slot : Nat) ≠ j := fun he => h (Fin.ext he.symm)
    simp [setEntry, h, Vector.getElem_set_ne, hne]

theorem itemsOf_setEntry_same (slot : Fin 256) (e : Option CheckEntry) (c : Checker) :
    itemsOf slot (setEntry slot e c) = itemsCalled slot e := by
  have hnone := removeDeadline_filter_same slot c.deadlines
  unfold itemsOf setEntry
  rcases itemsCalled_cases slot e with h | ⟨d, -, -, h, hd, -⟩
  · simpa [h] using hnone
  · simpa [h] using insertDeadline_filter_of_only (by simpa using hd) hnone

theorem itemsOf_setEntry_ne {slot j : Fin 256} (hj : j ≠ slot) (e : Option CheckEntry) (c : Checker) :
    itemsOf j (setEntry slot e c) = itemsOf j c := by
  have hother := removeDeadline_filter_ne hj c.deadlines
  unfold itemsOf setEntry
  rcases itemsCalled_cases slot e with h | ⟨d, -, -, h, hd, -⟩
  · simpa [h] using hother
  · have hp : (d.slot == j) = false := by simpa [hd] using hj.symm
    simpa [h, hother] using
      insertDeadline_filter_of_not (p := fun d => d.slot == j) hp (removeDeadline slot c.deadlines)

theorem setEntry_legal {slot : Fin 256} {e : Option CheckEntry} {c : Checker} (hd : datesKept e = true)
    (h : DeadlinesLegal c) : DeadlinesLegal (setEntry slot e c) := by
  intro j
  rw [setEntry_slots]
  by_cases hj : j = slot
  · subst hj
    rw [if_pos rfl]
    exact ⟨itemsOf_setEntry_same j e c, hd⟩
  · rw [if_neg hj, itemsOf_setEntry_ne hj]
    exact h j

/-! ## The course of an entry -/

/-- How far an entry has come: WAITING, PENDING, ARMED, decided. -/
def courseOf : EntryStatus → Nat
  | .waiting => 0
  | .pending => 1
  | .armed => 2
  | .satisfied | .missed | .unobservable | .cleared | .void => 3

/-- A slot's entry goes on in its course, and keeps its dates from PENDING onward (R130). -/
def Advances (before after : Option CheckEntry) : Prop :=
  ∀ e, before = some e → ∃ e', after = some e' ∧ courseOf e.status ≤ courseOf e'.status ∧
    (e.status ≠ .waiting → e'.dates = e.dates)

theorem Advances.refl (e : Option CheckEntry) : Advances e e := fun e he => ⟨e, he, Nat.le_refl _, fun _ => rfl⟩

theorem courseOf_eq_zero {st : EntryStatus} : courseOf st = 0 ↔ st = .waiting := by cases st <;> simp [courseOf]

theorem Advances.trans {a b c : Option CheckEntry} (hab : Advances a b) (hbc : Advances b c) : Advances a c := by
  intro e he
  obtain ⟨e', he', hle, hdates⟩ := hab e he
  obtain ⟨e'', he'', hle', hdates'⟩ := hbc e' he'
  refine ⟨e'', he'', hle.trans hle', fun hw => (hdates' fun hw' => hw ?_).trans (hdates hw)⟩
  rw [← courseOf_eq_zero] at hw' ⊢
  omega

theorem Advances.of_none (e : Option CheckEntry) : Advances none e := by rintro e ⟨⟩

theorem Advances.of_some {e e' : CheckEntry} (hle : courseOf e.status ≤ courseOf e'.status)
    (hd : e.status ≠ .waiting → e'.dates = e.dates) : Advances (some e) (some e') := by
  rintro _ ⟨⟩
  exact ⟨e', rfl, hle, hd⟩

/-- An entry that is PENDING or ARMED on the way from one record of its slot to another stood so at the beginning, or the
slot has changed; its dates are those at the end. -/
theorem Advances.between {a b c : Option CheckEntry} {e : CheckEntry} {d : EntryDates} (hab : Advances a b)
    (hbc : Advances b c) (he : b = some e) (hs : e.status = .pending ∨ e.status = .armed) (hd : e.dates = some d) :
    ∃ e', e'.dates = some d ∧ ((a = some e' ∧ (e'.status = .pending ∨ e'.status = .armed)) ∨ (c = some e' ∧ c ≠ a)) := by
  obtain ⟨last, hlast, hle, hdates⟩ := hbc e he
  have hlastDates : last.dates = some d := (hdates (by rcases hs with h | h <;> simp [h])).trans hd
  by_cases hca : c = a
  · obtain ⟨_, he₂, hle₂, -⟩ := hab last (hca ▸ hlast)
    obtain rfl : e = _ := Option.some.inj (he.symm.trans he₂)
    refine ⟨last, hlastDates, .inl ⟨hca ▸ hlast, ?_⟩⟩
    have hcourse : courseOf last.status = courseOf e.status := hle₂.antisymm hle
    rcases hs with h | h <;> rw [h] at hcourse <;> revert hcourse <;> cases last.status <;> simp [courseOf]
  · exact ⟨last, hlastDates, .inr ⟨hlast, hca⟩⟩

/-- Every slot goes on in its course. -/
def AllAdvance (c d : Checker) : Prop := ∀ j : Fin 256, Advances c.slots[j] d.slots[j]

/-! ## The moves of the checker -/

/-- One change of the checker: its two counts, or an entry that goes on in its course with the items it calls for. -/
inductive CheckerMove (c : Checker) : Checker → Prop
  | counted (refused unmatched : Nat) : CheckerMove c { c with refused := refused, unmatched := unmatched }
  | entrySet (slot : Fin 256) (e : CheckEntry) (ha : Advances c.slots[slot] (some e)) (hd : datesKept (some e) = true) :
      CheckerMove c (setEntry slot (some e) c)

theorem CheckerMove.legal {c d : Checker} (m : CheckerMove c d) (h : DeadlinesLegal c) : DeadlinesLegal d := by
  cases m with
  | counted refused unmatched => exact h
  | entrySet slot e ha hd => exact setEntry_legal hd h

theorem CheckerMove.advance {c d : Checker} (m : CheckerMove c d) : AllAdvance c d := by
  intro j
  cases m with
  | counted refused unmatched => exact Advances.refl _
  | entrySet slot e ha hd =>
    rw [setEntry_slots]
    split_ifs with hj
    · exact hj ▸ ha
    · exact Advances.refl _

open Relation (ReflTransGen)

theorem moves_legal {c d : Checker} (m : ReflTransGen CheckerMove c d) (h : DeadlinesLegal c) : DeadlinesLegal d := by
  induction m with
  | refl => exact h
  | tail _ last ih => exact last.legal ih

theorem moves_advance {c d : Checker} (m : ReflTransGen CheckerMove c d) : AllAdvance c d := by
  induction m with
  | refl => exact fun j => Advances.refl _
  | tail _ last ih => exact fun j => (ih j).trans (last.advance j)

/-! ## The order of the list -/

/-- Within the half cycle that begins at a date, a difference of dates is the difference of the two distances from it. -/
theorem dateDiff_within {a b base : Date} (ha : 0 ≤ dateDiff a base) (hb : 0 ≤ dateDiff b base) :
    dateDiff a b = dateDiff a base - dateDiff b base := by
  obtain ⟨q, hq, hlo, hhi⟩ := dateDiff_linear a b
  obtain ⟨qa, hqa, hloa, hhia⟩ := dateDiff_linear a base
  obtain ⟨qb, hqb, hlob, hhib⟩ := dateDiff_linear b base
  generalize dateDiff a b = x at *
  generalize dateDiff a base = y at *
  generalize dateDiff b base = z at *
  omega

/-- The items of a list lie in the half cycle that begins at a date. -/
def ItemsWithin (base : Date) (l : List Deadline) : Prop := ∀ d ∈ l, 0 ≤ dateDiff d.date base

theorem deadlineBefore_iff {a b : Deadline} {base : Date} (ha : 0 ≤ dateDiff a.date base)
    (hb : 0 ≤ dateDiff b.date base) :
    deadlineBefore a b = true ↔ dateDiff a.date base < dateDiff b.date base ∨
      (dateDiff a.date base = dateDiff b.date base ∧ a.slot < b.slot) := by
  simp only [deadlineBefore, dateBefore, Bool.or_eq_true, Bool.and_eq_true, decide_eq_true_eq, dateDiff_within ha hb,
    sub_neg, sub_eq_zero]

/-- An item of another slot than every item held finds its place in the order (R136). -/
theorem insertDeadline_ordered {base : Date} {d : Deadline} {l : List Deadline} (hw : ItemsWithin base (d :: l))
    (hs : ∀ e ∈ l, e.slot ≠ d.slot) (h : l.Pairwise fun a b => deadlineBefore a b = true) :
    (insertDeadline d l).Pairwise fun a b => deadlineBefore a b = true := by
  have hd : 0 ≤ dateDiff d.date base := hw d (by simp)
  induction l with
  | nil => simp [insertDeadline]
  | cons e rest ih =>
    have he : 0 ≤ dateDiff e.date base := hw e (by simp)
    obtain ⟨hfirst, hrest⟩ := List.pairwise_cons.mp h
    unfold insertDeadline
    split_ifs with hb
    · refine List.pairwise_cons.mpr ⟨fun x hx => ?_, h⟩
      rcases List.mem_cons.mp hx with rfl | hx
      · exact hb
      · have hx' : 0 ≤ dateDiff x.date base := hw x (by simp [hx])
        have hex := hfirst x hx
        rw [deadlineBefore_iff hd he] at hb
        rw [deadlineBefore_iff he hx'] at hex
        rw [deadlineBefore_iff hd hx']
        omega
    · refine List.pairwise_cons.mpr ⟨fun x hx => ?_, ih ?_ (fun x hx => hs x (by simp [hx])) hrest⟩
      · rcases List.mem_cons.mp ((insertDeadline_perm d rest).mem_iff.mp hx) with rfl | hx
        · have hne := hs e (by simp)
          rw [deadlineBefore_iff hd he] at hb
          rw [deadlineBefore_iff he hd]
          omega
        · exact hfirst x hx
      · intro x hx
        exact hw x (by rcases List.mem_cons.mp hx with rfl | hx <;> simp [*])

theorem removeDeadline_ordered {l : List Deadline} (slot : Fin 256)
    (h : l.Pairwise fun a b => deadlineBefore a b = true) :
    (removeDeadline slot l).Pairwise fun a b => deadlineBefore a b = true :=
  h.sublist List.filter_sublist

theorem setEntry_ordered {base : Date} {slot : Fin 256} {e : Option CheckEntry} {c : Checker}
    (hw : ItemsWithin base (setEntry slot e c).deadlines) (h : DeadlinesOrdered c) :
    DeadlinesOrdered (setEntry slot e c) := by
  have hremoved := removeDeadline_ordered slot h
  unfold DeadlinesOrdered
  unfold setEntry at hw ⊢
  rcases itemsCalled_cases slot e with hi | ⟨d, -, -, hi, hd, -⟩
  · simpa [hi] using hremoved
  · simp only [hi, List.foldr_cons, List.foldr_nil] at hw ⊢
    refine insertDeadline_ordered (fun x hx => hw x ?_) (fun x hx => ?_) hremoved
    · exact (insertDeadline_perm _ _).mem_iff.mpr hx
    · rw [hd]
      simpa using (List.mem_filter.mp hx).2

/-- Every item of a legal list is called for by the entry of its slot. -/
theorem entry_of_item {c : Checker} {d : Deadline} (h : DeadlinesLegal c) (hd : d ∈ c.deadlines) :
    d ∈ itemsCalled d.slot c.slots[d.slot] := by
  rw [← (h d.slot).1]
  exact List.mem_filter.mpr ⟨hd, by simp⟩

/-- On the way from one legal checker to another, the items lie where the dates of both ends do. -/
theorem itemsWithin_between {base : Date} {first mid last : Checker} (hl : DeadlinesLegal mid)
    (h1 : AllAdvance first mid) (h2 : AllAdvance mid last) (hw : DatesWithinHalfCycle base first last) :
    ItemsWithin base mid.deadlines := by
  intro d hd
  have hmem := entry_of_item hl hd
  rcases itemsCalled_cases d.slot mid.slots[d.slot] with hi | ⟨x, e, dates, hi, -, he, hs, hdates, hx⟩
  · rw [hi] at hmem
    simp at hmem
  · rw [hi] at hmem
    obtain rfl : d = x := List.mem_singleton.mp hmem
    obtain ⟨e', hdates', hends⟩ := (h1 d.slot).between (h2 d.slot) he hs hdates
    obtain ⟨hopening, hmiss⟩ := hw d.slot e' dates hends hdates'
    rcases hx with hx | hx
    · exact hx ▸ hopening
    · exact hx ▸ hmiss

theorem moves_ordered {base : Date} {first mid last : Checker} (hl : DeadlinesLegal first)
    (m : ReflTransGen CheckerMove first mid) (ha : AllAdvance mid last) (hw : DatesWithinHalfCycle base first last)
    (h : DeadlinesOrdered first) : DeadlinesOrdered mid := by
  induction m with
  | refl => exact h
  | @tail b d hb hbd ih =>
    have hordered := ih fun j => (hbd.advance j).trans (ha j)
    cases hbd with
    | counted refused unmatched => exact hordered
    | entrySet slot e hadv hkept =>
      have hd := hb.tail (CheckerMove.entrySet slot e hadv hkept)
      exact setEntry_ordered (itemsWithin_between (moves_legal hd hl) (moves_advance hd) ha hw) hordered

end Sys2Proof.Machine

/-! # The checker's operations as moves (sections 8.2 to 8.6) -/

namespace Sys2Proof.Machine

open Relation (ReflTransGen)

/-- On a legal checker the change is made of moves. -/
def CheckerEvolves (c d : Checker) : Prop := DeadlinesLegal c → ReflTransGen CheckerMove c d

theorem CheckerEvolves.refl (c : Checker) : CheckerEvolves c c := fun _ => .refl

theorem CheckerEvolves.trans {a b c : Checker} (hab : CheckerEvolves a b) (hbc : CheckerEvolves b c) :
    CheckerEvolves a c := fun h => (hab h).trans (hbc (moves_legal (hab h) h))

theorem CheckerMove.evolves {c d : Checker} (m : CheckerMove c d) : CheckerEvolves c d := fun _ => .single m

/-! ## An entry set, as the operations do it -/

theorem itemsCalled_of_idle {slot : Fin 256} {e : CheckEntry} (h1 : e.status ≠ .pending) (h2 : e.status ≠ .armed) :
    itemsCalled slot (some e) = [] := by
  unfold itemsCalled
  cases hs : e.status <;> simp_all

theorem datesKept_of_idle {e : CheckEntry} (h1 : e.status ≠ .pending) (h2 : e.status ≠ .armed) :
    datesKept (some e) = true := by
  simp [datesKept, h1, h2]

theorem datesKept_of_dates {e : CheckEntry} {dates : EntryDates} (h : e.dates = some dates) :
    datesKept (some e) = true := by
  simp [datesKept, h]

/-- An entry that calls for no item leaves its slot none. -/
theorem setEntry_of_idle_entry {slot : Fin 256} {e : CheckEntry} (c : Checker) (h1 : e.status ≠ .pending)
    (h2 : e.status ≠ .armed) :
    setEntry slot (some e) c =
      { putEntry slot (some e) c with deadlines := removeDeadline slot c.deadlines } := by
  unfold setEntry
  rw [itemsCalled_of_idle h1 h2]
  rfl

/-- An entry set in a slot without items adds the items it calls for. -/
theorem setEntry_of_no_items {slot : Fin 256} {c : Checker} (e : Option CheckEntry) (hl : DeadlinesLegal c)
    (h : itemsCalled slot c.slots[slot] = []) :
    setEntry slot e c =
      { putEntry slot e c with deadlines := (itemsCalled slot e).foldr insertDeadline c.deadlines } := by
  have hnone : itemsOf slot c = [] := (hl slot).1.trans h
  unfold setEntry putEntry
  rw [removeDeadline_of_absent hnone]

/-- An entry that calls for no item, set where none is held. -/
theorem setEntry_of_idle {slot : Fin 256} {c : Checker} {e : CheckEntry} (hl : DeadlinesLegal c)
    (h : itemsCalled slot c.slots[slot] = []) (h1 : e.status ≠ .pending) (h2 : e.status ≠ .armed) :
    setEntry slot (some e) c = putEntry slot (some e) c := by
  rw [setEntry_of_no_items (some e) hl h, itemsCalled_of_idle h1 h2]
  rfl

/-- R134, R135: the entry becomes PENDING with its OPEN item. -/
theorem makePending_eq {img : Image} {slot : Fin 256} {e : CheckEntry} {due : Date} {c : Checker}
    (hl : DeadlinesLegal c) (h : itemsCalled slot c.slots[slot] = []) :
    makePending img slot e due c =
      setEntry slot (some { e with
        status := .pending, dates := some (entryDates img e.earlyMs e.lateMs due) }) c := by
  rw [setEntry_of_no_items _ hl h]
  rfl

/-- A WAITING or EMPTY slot takes an entry that becomes PENDING. -/
theorem makePending_evolves {img : Image} {slot : Fin 256} {e : CheckEntry} {due : Date} {c : Checker}
    (h : c.slots[slot] = none ∨ (c.slots[slot] = some e ∧ e.status = .waiting)) :
    CheckerEvolves c (makePending img slot e due c) := by
  intro hl
  have hitems : itemsCalled slot c.slots[slot] = [] := by
    rcases h with h | ⟨h, hs⟩
    · rw [h]; rfl
    · rw [h]; exact itemsCalled_of_idle (by simp [hs]) (by simp [hs])
  rw [makePending_eq hl hitems]
  refine .single (.entrySet slot _ ?_ (datesKept_of_dates rfl))
  rcases h with h | ⟨h, hs⟩
  · rw [h]; exact Advances.of_none _
  · rw [h]; exact Advances.of_some (by simp [hs, courseOf]) (fun hw => absurd hs hw)

/-! ## Chains (section 8.5) -/

/-- What every entry that becomes VOID on a chain keeps, the whole chain keeps (R143). -/
theorem voidChain_induct {p : Vector (Option CheckEntry) 256 → Prop}
    (hp : ∀ (v : Vector (Option CheckEntry) 256) (j : Fin 256) (e : CheckEntry), v[j] = some e →
      e.status = .waiting → p v → p (v.set j (some { e with status := .void })))
    (depth : Nat) (slot : Fin 256) (v : Vector (Option CheckEntry) 256) (h : p v) : p (voidChain depth slot v) := by
  induction depth generalizing slot v with
  | zero => exact h
  | succ depth ih =>
    unfold voidChain
    refine List.foldlRecOn (motive := p) _ _ h fun v hv j _ => ?_
    split
    · next e he =>
      split_ifs with hw
      · exact ih _ _ (hp v j e he (by simpa [waitingOn] using (Bool.and_eq_true_iff.mp hw).1) hv)
      · exact hv
    · exact hv

theorem voidSuccessors_evolves (slot : Fin 256) (c : Checker) : CheckerEvolves c (voidSuccessors slot c) := by
  intro hl
  refine voidChain_induct (p := fun v => ReflTransGen CheckerMove c { c with slots := v }) ?_ 256 slot c.slots .refl
  intro v j e he hw hv
  have hlv := moves_legal hv hl
  have hitems : itemsCalled j v[j] = [] := by
    rw [he]
    exact itemsCalled_of_idle (by simp [hw]) (by simp [hw])
  have hadv : Advances v[j] (some { e with status := .void }) := by
    rw [he]
    exact Advances.of_some (by simp [hw, courseOf]) (fun hne => absurd hw hne)
  have hmove := CheckerMove.entrySet (c := { c with slots := v }) j _ hadv (datesKept_of_idle (by simp) (by simp))
  rw [setEntry_of_idle hlv hitems (by simp) (by simp)] at hmove
  exact hv.tail hmove

theorem successorsPending_evolves (img : Image) (slot : Fin 256) (base : Date) (c : Checker) :
    CheckerEvolves c (successorsPending img slot base c) := by
  unfold successorsPending
  refine List.foldlRecOn (motive := CheckerEvolves c) _ _ (CheckerEvolves.refl c) fun b hb j _ => ?_
  split
  · next e he =>
    split_ifs with hw
    · split
      · exact hb.trans (makePending_evolves (.inr ⟨he, by simpa [waitingOn] using (Bool.and_eq_true_iff.mp hw).1⟩))
      · exact hb
    · exact hb
  · exact hb

/-! ## Firing (section 8.4) -/

/-- The head of a legal list and the entry that calls for it. -/
theorem entry_of_head {c : Checker} {d : Deadline} {rest : List Deadline} (h : DeadlinesLegal c)
    (hd : c.deadlines = d :: rest) :
    removeDeadline d.slot c.deadlines = rest ∧
    ∃ (e : CheckEntry) (dates : EntryDates), c.slots[d.slot] = some e ∧ e.dates = some dates ∧
      ((d.kind = .opening ∧ e.status = .pending) ∨ (d.kind = .miss ∧ e.status = .armed)) := by
  have hmem := entry_of_item h (hd ▸ List.mem_cons_self : d ∈ c.deadlines)
  rcases itemsCalled_cases d.slot c.slots[d.slot] with hi | ⟨x, e, dates, hi, -, he, hs, hdates, -⟩
  · rw [hi] at hmem
    simp at hmem
  · rw [hi] at hmem
    obtain rfl : d = x := List.mem_singleton.mp hmem
    have hone : itemsOf d.slot c = [d] := (h d.slot).1.trans hi
    refine ⟨?_, e, dates, he, hdates, ?_⟩
    · unfold itemsOf at hone
      rw [hd] at hone ⊢
      exact removeDeadline_head hone
    · rw [he] at hi
      unfold itemsCalled at hi
      rcases hs with hs | hs <;> simp only [hs, hdates, List.cons.injEq, and_true] at hi <;> rw [← hi] <;> simp [hs]

theorem missStatus_cases (heard : Vector HeardEntry 62) (e : CheckEntry) :
    missStatus heard e = .unobservable ∨ missStatus heard e = .missed := by
  unfold missStatus
  split_ifs
  · simp
  · split
    · split_ifs <;> simp
    · simp

/-- The head, an OPEN item, fires: the entry becomes ARMED with its MISS item (R137, R138). -/
theorem fireHead_opening {s : State} {d : Deadline} {e : CheckEntry} {dates : EntryDates} (hk : d.kind = .opening)
    (he : s.checker.slots[d.slot] = some e) (hd : e.dates = some dates) :
    (fireHead d s).checker =
      { putEntry d.slot (some { e with
          status := .armed
          armingDate := some s.time.date
          snapshot := subjectMissed s.line.heard e.origin }) s.checker with
        deadlines := insertDeadline { date := dates.missDeadline, slot := d.slot, kind := .miss }
          s.checker.deadlines.tail } := by
  rw [Fin.getElem_fin] at he
  simp [fireHead, hk, fireOpen, he, hd, putEntry]

/-- The head, a MISS item, fires: the entry is missed and its chain VOID (R137, R139). -/
theorem fireHead_miss {s : State} {d : Deadline} {e : CheckEntry} {dates : EntryDates} (hk : d.kind = .miss)
    (he : s.checker.slots[d.slot] = some e) (hd : e.dates = some dates) :
    (fireHead d s).checker =
      voidSuccessors d.slot { putEntry d.slot (some { e with status := missStatus s.line.heard e }) s.checker with
        deadlines := s.checker.deadlines.tail } := by
  rw [Fin.getElem_fin] at he
  simp [fireHead, hk, fireMiss, he, hd, putEntry]

theorem fireHead_opening_evolves {s : State} {d : Deadline} {e : CheckEntry} {dates : EntryDates}
    (hk : d.kind = .opening) (he : s.checker.slots[d.slot] = some e) (hd : e.dates = some dates)
    (hs : e.status = .pending) (hrest : removeDeadline d.slot s.checker.deadlines = s.checker.deadlines.tail) :
    CheckerEvolves s.checker (fireHead d s).checker := by
  have hadv : Advances s.checker.slots[d.slot] (some { e with
      status := .armed, armingDate := some s.time.date, snapshot := subjectMissed s.line.heard e.origin }) := by
    rw [he]
    exact Advances.of_some (by simp [hs, courseOf]) fun _ => rfl
  rw [fireHead_opening hk he hd]
  convert (CheckerMove.entrySet d.slot _ hadv (datesKept_of_dates hd)).evolves using 1
  simp [setEntry, putEntry, itemsCalled, hd, hrest]

theorem fireHead_miss_evolves {s : State} {d : Deadline} {e : CheckEntry} {dates : EntryDates}
    (hk : d.kind = .miss) (he : s.checker.slots[d.slot] = some e) (hd : e.dates = some dates)
    (hs : e.status = .armed) (hrest : removeDeadline d.slot s.checker.deadlines = s.checker.deadlines.tail) :
    CheckerEvolves s.checker (fireHead d s).checker := by
  have hst := missStatus_cases s.line.heard e
  have h1 : missStatus s.line.heard e ≠ .pending := by rcases hst with h | h <;> simp [h]
  have h2 : missStatus s.line.heard e ≠ .armed := by rcases hst with h | h <;> simp [h]
  have hadv : Advances s.checker.slots[d.slot] (some { e with status := missStatus s.line.heard e }) := by
    rw [he]
    exact Advances.of_some (by rcases hst with h | h <;> simp [h, hs, courseOf]) fun _ => rfl
  have hmove := CheckerMove.entrySet d.slot _ hadv (datesKept_of_idle h1 h2)
  rw [setEntry_of_idle_entry s.checker h1 h2, hrest] at hmove
  rw [fireHead_miss hk he hd]
  exact hmove.evolves.trans (voidSuccessors_evolves d.slot _)

theorem fireHead_evolves {s : State} {d : Deadline} (h : dueDeadline s = some d) :
    CheckerEvolves s.checker (fireHead d s).checker := by
  intro hl
  obtain ⟨hrest, e, dates, he, hdates, ⟨hk, hs⟩ | ⟨hk, hs⟩⟩ := entry_of_head hl (deadlines_of_due h)
  · exact fireHead_opening_evolves hk he hdates hs hrest hl
  · exact fireHead_miss_evolves hk he hdates hs hrest hl

theorem runDeadlines_evolves (s : State) : CheckerEvolves s.checker (runDeadlines s).checker :=
  runDeadlines_induct (p := fun t => CheckerEvolves s.checker t.checker)
    (fun _ _ hd h => h.trans (fireHead_evolves hd)) s (CheckerEvolves.refl _)

/-! ## Observations (section 8.6) -/

/-- The chosen candidate is the entry of its slot, and passes the test. -/
theorem chooseEntry_some {test : CheckEntry → Bool} {slots : Vector (Option CheckEntry) 256} {k : Candidate}
    (h : chooseEntry test slots = some k) : slots[k.slot] = some k.entry ∧ test k.entry = true := by
  have hmem : ∀ (l : List Candidate) (best : Option Candidate), l.foldl earlierCandidate best = some k →
      best = some k ∨ k ∈ l := by
    intro l
    induction l with
    | nil => exact fun best hb => .inl hb
    | cons c rest ih =>
      intro best hb
      rcases ih _ hb with hc | hc
      · unfold earlierCandidate at hc
        split at hc
        · split_ifs at hc
          · exact .inr (by simp_all)
          · exact .inl hc
        · exact .inr (by simp_all)
      · exact .inr (List.mem_cons_of_mem c hc)
  rcases hmem _ _ h with hk | hk
  · simp at hk
  · obtain ⟨j, -, hj⟩ := List.mem_filterMap.mp hk
    unfold candidateAt at hj
    split at hj
    · split at hj
      · split_ifs at hj with ht
        obtain rfl := Option.some.inj hj
        exact ⟨by assumption, ht⟩
      · simp at hj
    · simp at hj

theorem eligible_armed {o : Observation} {e : CheckEntry} (h : eligible o e = true) : e.status = .armed := by
  unfold eligible at h
  split at h
  · simp only [Bool.and_eq_true, beq_iff_eq] at h
    exact h.1.1
  · simp at h

theorem clearable_missed {o : Observation} {e : CheckEntry} (h : clearable o e = true) :
    e.status = .missed ∨ e.status = .unobservable := by
  unfold clearable at h
  split at h
  · simp only [Bool.and_eq_true, Bool.or_eq_true, beq_iff_eq] at h
    exact h.1.1.1
  · simp at h

/-- R147, R148: the entry SATISFIED and its MISS item gone. -/
theorem settleEntry_evolves {o : Observation} {k : Candidate} {c : Checker} (hk : c.slots[k.slot] = some k.entry)
    (ha : k.entry.status = .armed) : CheckerEvolves c (settleEntry o k c) := by
  have hadv : Advances c.slots[k.slot] (some (satisfiedBy o k)) := by
    rw [hk]
    exact Advances.of_some (by simp [ha, satisfiedBy, courseOf]) fun _ => rfl
  have hmove := CheckerMove.entrySet k.slot _ hadv (datesKept_of_idle (by simp [satisfiedBy]) (by simp [satisfiedBy]))
  rw [setEntry_of_idle_entry c (by simp [satisfiedBy]) (by simp [satisfiedBy])] at hmove
  exact hmove.evolves

theorem satisfyEntry_evolves {o : Observation} {k : Candidate} {s : State}
    (hk : s.checker.slots[k.slot] = some k.entry) (ha : k.entry.status = .armed) :
    CheckerEvolves s.checker (satisfyEntry o k s).checker := by
  unfold satisfyEntry releaseSuccessors
  refine (settleEntry_evolves (o := o) hk ha).trans (CheckerEvolves.trans ?_ (runDeadlines_evolves _))
  simpa using successorsPending_evolves s.port.image k.slot o.date (settleEntry o k s.checker)

theorem clearEntry_evolves {o : Observation} {k : Candidate} {s : State}
    (hk : s.checker.slots[k.slot] = some k.entry) (hm : k.entry.status = .missed ∨ k.entry.status = .unobservable) :
    CheckerEvolves s.checker (clearEntry o k s).checker := by
  intro hl
  have hitems : itemsCalled k.slot s.checker.slots[k.slot] = [] := by
    rw [hk]
    rcases hm with h | h <;> exact itemsCalled_of_idle (by simp [h]) (by simp [h])
  have hadv : Advances s.checker.slots[k.slot]
      (some { k.entry with status := .cleared, matched := some (matchedOf o) }) := by
    rw [hk]
    exact Advances.of_some (by rcases hm with h | h <;> simp [h, courseOf]) fun _ => rfl
  have hmove := CheckerMove.entrySet k.slot _ hadv (datesKept_of_idle (by simp) (by simp))
  rw [setEntry_of_idle hl hitems (by simp) (by simp)] at hmove
  simpa [clearEntry] using ReflTransGen.single hmove

theorem takeObservation_evolves (o : Observation) (s : State) :
    CheckerEvolves s.checker (takeObservation o s).checker := by
  unfold takeObservation
  split_ifs
  · exact (CheckerMove.counted _ s.checker.unmatched).evolves
  · split
    · next k hk =>
      obtain ⟨hslot, ht⟩ := chooseEntry_some hk
      exact satisfyEntry_evolves hslot (eligible_armed ht)
    · split
      · next k hk =>
        obtain ⟨hslot, ht⟩ := chooseEntry_some hk
        exact clearEntry_evolves hslot (clearable_missed ht)
      · exact (CheckerMove.counted s.checker.refused _).evolves

/-! ## Loading and cancelling (sections 8.2 and 8.5) -/

/-- An EMPTY slot takes an entry that calls for no item. -/
theorem putEntry_evolves {slot : Fin 256} {e : CheckEntry} {c : Checker} (h : c.slots[slot] = none)
    (h1 : e.status ≠ .pending) (h2 : e.status ≠ .armed) : CheckerEvolves c (putEntry slot (some e) c) := by
  intro hl
  have hitems : itemsCalled slot c.slots[slot] = [] := by rw [h]; rfl
  rw [← setEntry_of_idle hl hitems h1 h2]
  exact .single (.entrySet slot e (h ▸ Advances.of_none _) (datesKept_of_idle h1 h2))

theorem placeEntry_evolves {img : Image} {f : LoadFields} {c : Checker} (h : c.slots[f.slot] = none) :
    CheckerEvolves c (placeEntry img f c) := by
  have hwaiting : CheckerEvolves c (putEntry f.slot (some (loadedEntry f .waiting)) c) :=
    putEntry_evolves h (by simp [loadedEntry]) (by simp [loadedEntry])
  have hvoid : CheckerEvolves c (putEntry f.slot (some (loadedEntry f .void)) c) :=
    putEntry_evolves h (by simp [loadedEntry]) (by simp [loadedEntry])
  have hpending : ∀ due, CheckerEvolves c (makePending img f.slot (loadedEntry f .pending) due c) :=
    fun due => makePending_evolves (.inl h)
  unfold placeEntry
  dsimp only
  split
  · split
    · exact hpending _
    · exact hvoid
  · split
    · split
      case h_4 =>
        split
        · exact hpending _
        · exact hvoid
      case h_1 | h_2 | h_3 => exact hwaiting
      all_goals exact hvoid
    · exact hvoid

theorem acceptEntry_evolves {f : LoadFields} {s : State} (h : s.checker.slots[f.slot] = none) :
    CheckerEvolves s.checker (acceptEntry f s).checker :=
  (placeEntry_evolves h).trans (runDeadlines_evolves { s with checker := placeEntry s.port.image f s.checker })

/-- What an entry names as predecessor bears on no item (R133). -/
theorem itemsCalled_unlink (slot j : Fin 256) (e : Option CheckEntry) :
    itemsCalled j (e.map (unlink slot)) = itemsCalled j e ∧ datesKept (e.map (unlink slot)) = datesKept e := by
  cases e with
  | none => exact ⟨rfl, rfl⟩
  | some e =>
    simp only [Option.map_some, unlink]
    split_ifs <;> exact ⟨rfl, rfl⟩

theorem cancelSlot_deadlines (slot : Fin 256) (c : Checker) :
    (cancelSlot slot c).deadlines = removeDeadline slot c.deadlines := by
  simp [cancelSlot, putEntry, voidSuccessors]

/-- The entries that become VOID called for no item as WAITING ones, and call for none now (R143). -/
theorem itemsCalled_voidChain {c : Checker} (h : DeadlinesLegal c) (depth : Nat) (slot j : Fin 256) :
    itemsCalled j (voidChain depth slot c.slots)[j] = itemsCalled j c.slots[j] ∧
    datesKept (voidChain depth slot c.slots)[j] = true := by
  revert j
  refine voidChain_induct (p := fun v => ∀ j : Fin 256, itemsCalled j v[j] = itemsCalled j c.slots[j] ∧
    datesKept v[j] = true) ?_ depth slot c.slots fun j => ⟨rfl, (h j).2⟩
  intro v i e he hw hv
  obtain ⟨hitems, -⟩ := hv i
  rw [he, itemsCalled_of_idle (by simp [hw]) (by simp [hw])] at hitems
  exact forall_set (p := fun j e => itemsCalled j e = itemsCalled j c.slots[j] ∧ datesKept e = true)
    ⟨hitems ▸ itemsCalled_of_idle (by simp) (by simp), datesKept_of_idle (by simp) (by simp)⟩ hv

theorem cancelSlot_legal {slot : Fin 256} {c : Checker} (h : DeadlinesLegal c) :
    DeadlinesLegal (cancelSlot slot c) := by
  intro j
  have hitemsOf : itemsOf j (cancelSlot slot c) = (removeDeadline slot c.deadlines).filter fun d => d.slot == j := by
    rw [itemsOf, cancelSlot_deadlines]
  by_cases hj : j = slot
  · subst hj
    rw [hitemsOf, removeDeadline_filter_same]
    simp [cancelSlot, putEntry, itemsCalled, datesKept]
  · have hne : (slot : Nat) ≠ j := fun hij => hj (Fin.ext hij.symm)
    have hslot : (cancelSlot slot c).slots[j] = ((voidChain 256 slot c.slots)[j]).map (unlink slot) := by
      simp [cancelSlot, putEntry, voidSuccessors, Vector.getElem_set_ne, hne]
    obtain ⟨hu, hk⟩ := itemsCalled_unlink slot j (voidChain 256 slot c.slots)[j]
    obtain ⟨hitems, hkept⟩ := itemsCalled_voidChain h 256 slot j
    rw [hitemsOf, removeDeadline_filter_ne hj, hslot, hu, hk, hitems]
    exact ⟨(h j).1, hkept⟩

theorem cancelSlot_ordered {slot : Fin 256} {c : Checker} (h : DeadlinesOrdered c) :
    DeadlinesOrdered (cancelSlot slot c) := by
  unfold DeadlinesOrdered
  rw [cancelSlot_deadlines]
  exact removeDeadline_ordered slot h

theorem checkerReset_legal : DeadlinesLegal checkerReset := by
  intro slot
  simp [checkerReset, itemsOf, itemsCalled, datesKept]

theorem checkerReset_ordered : DeadlinesOrdered checkerReset := by
  simp [DeadlinesOrdered, checkerReset]

end Sys2Proof.Machine

/-! # What every command does to time base, agreement controller, checker, station state and image

A command lets these parts evolve by moves, or it is one of the six actions that set them whole. -/

namespace Sys2Proof.Machine

open Relation (ReflTransGen)

/-- Station state and image stay, and time base, agreement controller and checker change by moves. -/
structure Evolves (s t : State) : Prop where
  time : ReflTransGen TimeMove s.time t.time
  agreement : ReflTransGen AgreementMove s.agreement t.agreement
  checker : CheckerEvolves s.checker t.checker
  station : t.port.station = s.port.station
  image : t.port.image = s.port.image

theorem Evolves.trans {s t u : State} (h1 : Evolves s t) (h2 : Evolves t u) : Evolves s u where
  time := h1.time.trans h2.time
  agreement := h1.agreement.trans h2.agreement
  checker := h1.checker.trans h2.checker
  station := h2.station.trans h1.station
  image := h2.image.trans h1.image

/-- A change of other blocks alone. -/
theorem Evolves.of_kept {s t : State} (h : t.time = s.time ∧ t.agreement = s.agreement ∧ t.checker = s.checker ∧
    t.port.station = s.port.station ∧ t.port.image = s.port.image) : Evolves s t := by
  obtain ⟨htime, hagreement, hchecker, hstation, himage⟩ := h
  exact ⟨htime ▸ .refl, hagreement ▸ .refl, hchecker ▸ CheckerEvolves.refl _, hstation, himage⟩

theorem Evolves.refl (s : State) : Evolves s s := .of_kept ⟨rfl, rfl, rfl, rfl, rfl⟩

theorem Evolves.of_time {s t : State} (m : TimeMove s.time t.time) (h : t.agreement = s.agreement ∧
    t.checker = s.checker ∧ t.port.station = s.port.station ∧ t.port.image = s.port.image) : Evolves s t := by
  obtain ⟨hagreement, hchecker, hstation, himage⟩ := h
  exact ⟨.single m, hagreement ▸ .refl, hchecker ▸ CheckerEvolves.refl _, hstation, himage⟩

theorem Evolves.of_agreement {s t : State} (m : AgreementMove s.agreement t.agreement) (h : t.time = s.time ∧
    t.checker = s.checker ∧ t.port.station = s.port.station ∧ t.port.image = s.port.image) : Evolves s t := by
  obtain ⟨htime, hchecker, hstation, himage⟩ := h
  exact ⟨htime ▸ .refl, .single m, hchecker ▸ CheckerEvolves.refl _, hstation, himage⟩

theorem Evolves.of_checker {s t : State} (m : CheckerEvolves s.checker t.checker) (h : t.time = s.time ∧
    t.agreement = s.agreement ∧ t.port.station = s.port.station ∧ t.port.image = s.port.image) : Evolves s t := by
  obtain ⟨htime, hagreement, hstation, himage⟩ := h
  exact ⟨htime ▸ .refl, hagreement ▸ .refl, m, hstation, himage⟩

/-! ## The own mark -/

theorem passMicrosecond_evolves (s : State) : Evolves s (passMicrosecond s) :=
  .of_time (.advanced s.port.image.lines) (by simp)

theorem clearMark_evolves (s : State) : Evolves s (clearMark s) := .of_time .markTaken (by simp)

/-- A close that brings the count to 4 finds the station AGREED (R49, R60). -/
theorem agreed_of_closedCount {a : Agreement} (h : 4 ≤ closedCount a) : a.timeState = .agreed := by
  unfold closedCount at h
  split_ifs at h with hc
  · exact hc.1
  · omega

theorem closeSecond_evolves (s : State) : Evolves s (closeSecond s) := by
  have hclosed : Evolves s { s with agreement := { s.agreement with
      withoutSource := closedCount s.agreement, acceptedThisSecond := false } } :=
    .of_agreement (.secondCloses _) (by simp)
  unfold closeSecond
  dsimp only
  split_ifs with h
  · refine hclosed.trans (.of_agreement ?_ (by simp))
    simpa [enterHoldover] using AgreementMove.holdoverEntered
      (a := { s.agreement with withoutSource := closedCount s.agreement, acceptedThisSecond := false })
      (by simp [agreed_of_closedCount h]) s.agreement.grade s.time.elapsed
  · exact hclosed

theorem markInRun_evolves (second : Nat) (s : State) : Evolves s (markInRun second s) := by
  refine (closeSecond_evolves s).trans (.of_kept ?_)
  unfold markInRun
  dsimp only
  split_ifs <;> simp

theorem takeMark_evolves (s : State) : Evolves s (takeMark s) := by
  unfold takeMark
  split
  · split_ifs
    · exact (clearMark_evolves s).trans (markInRun_evolves _ _)
    · exact clearMark_evolves s
  · exact .refl s

theorem markBeforeStep_evolves (d : Int) (s : State) : Evolves s (markBeforeStep d s) := by
  unfold markBeforeStep
  split_ifs
  · exact takeMark_evolves s
  · exact .refl s

/-! ## Offsets and what follows a change of time -/

theorem followTime_evolves (s : State) : Evolves s (followTime s) :=
  .of_checker (by simpa [followTime] using runDeadlines_evolves s) (by simp [followTime])

theorem discipline_evolves (d : Int) (s : State) : Evolves s (discipline d s).2 :=
  .of_time (by simpa using TimeMove.disciplined d s.agreement.timeState) (by simp)

theorem giveOffset_evolves (kind : SourceKind) (grade : Nat) (d : Int) (s : State) :
    Evolves s (giveOffset kind grade d s) := by
  refine ((discipline_evolves d s).trans (.of_agreement ?_ ?_)).trans (followTime_evolves _)
  · exact .outcomeTaken s.time.elapsed kind grade (discipline d s).1
  · simp

theorem restartSilence_evolves (s : State) :
    Evolves s { s with agreement := restartSilence s.time.elapsed s.agreement } :=
  .of_agreement (.silenceRestarts _) (by simp)

theorem takePulse_evolves (expected : Date) (a : Arming) (s : State) : Evolves s (takePulse expected a s) := by
  have harmed : Evolves s { s with agreement := { s.agreement with
      arming := some (armingAfterPulse s.time.elapsed expected a) } } :=
    .of_agreement (.armed _ s.agreement.referenceGood) (by simp)
  exact ((harmed.trans (restartSilence_evolves _)).trans (markBeforeStep_evolves _ _)).trans
    (giveOffset_evolves _ _ _ _)

theorem meetPulse_evolves (s : State) : Evolves s (meetPulse s) := by
  unfold meetPulse
  split
  · split
    · exact takePulse_evolves _ _ s
    · exact .refl s
  · exact .refl s

/-- A level at a terminal is an edge, a pulse, or a sample for the clock lines; a pulse alone moves time (R66, R71). -/
theorem takeLevel_evolves (t : Fin 40) (level : Bool) (s : State) : Evolves s (takeLevel t level s) := by
  unfold takeLevel
  dsimp only
  split_ifs
  · exact .of_kept (by simp)
  · exact (Evolves.of_kept (by simp)).trans (meetPulse_evolves _)
  · exact .of_kept (by simp)

theorem loseReference_evolves (s : State) : Evolves s (loseReference s) := by
  have hdisarmed : Evolves s { s with agreement := disarm s.agreement } := .of_agreement (.armed none 0) (by simp)
  unfold loseReference
  dsimp only
  split_ifs with h
  · refine hdisarmed.trans (.of_agreement ?_ (by simp))
    simpa [enterHoldover] using AgreementMove.holdoverEntered (a := disarm s.agreement) (by simp [disarm, h]) 1
      s.time.elapsed
  · exact hdisarmed

/-! ## Frames -/

theorem frameEnds_evolves {isTime checkAgrees : Bool} {good : State → State} {s : State} (h : Evolves s (good s)) :
    Evolves s (frameEnds isTime checkAgrees good s) := by
  have hbad (why : BadFrame) : Evolves s (endBadFrame why s) := .of_kept (by simp)
  unfold frameEnds
  split_ifs
  · exact h
  · exact hbad _
  · exact hbad _
  · exact .refl s

theorem hearTimeFrame_evolves (f : TimeFrame) (capture : Option Stamp) (s : State) :
    Evolves s (hearTimeFrame f capture s) := by
  refine (restartSilence_evolves s).trans ?_
  unfold hearTimeFrame
  dsimp only
  split
  · split_ifs
    · exact (markBeforeStep_evolves _ _).trans (giveOffset_evolves _ _ _ _)
    · exact .of_kept (by simp)
    · exact .refl _
  · exact .refl _

theorem endTimeFrame_evolves (f : TimeFrame) (s : State) : Evolves s (endTimeFrame f s) := by
  have hend : Evolves s (endGoodFrame f.origin s) := .of_kept (by simp)
  unfold endTimeFrame
  dsimp only
  split_ifs
  · refine hend.trans (Evolves.trans ?_ (hearTimeFrame_evolves _ _ _))
    split
    · exact .of_kept (by simp)
    · exact .refl _
  · exact hend

theorem takeObservation_state_evolves (o : Observation) (s : State) : Evolves s (takeObservation o s) :=
  .of_checker (takeObservation_evolves o s) (by simp)

theorem acceptNotice_evolves (f : NoticeFrame) (s : State) : Evolves s (acceptNotice f s) := by
  unfold acceptNotice
  split
  · dsimp only
    split_ifs
    · exact (Evolves.of_kept (by simp)).trans (takeObservation_state_evolves (noticeObservation f) _)
    · exact .of_kept (by simp)
  · exact .refl s

theorem steerNotice_evolves (k : Fin 62) (f : NoticeFrame) (s : State) : Evolves s (steerNotice k f s) := by
  unfold steerNotice
  dsimp only
  split_ifs
  · exact .of_kept (by simp)
  · exact (Evolves.of_kept (by simp)).trans (acceptNotice_evolves f _)
  · exact .of_kept (by simp)

theorem endNotice_evolves (f : NoticeFrame) (s : State) : Evolves s (endNotice f s) := by
  have hend : Evolves s (endGoodFrame f.origin s) := .of_kept (by simp)
  unfold endNotice
  dsimp only
  split
  · split_ifs
    · exact hend.trans (steerNotice_evolves _ f _)
    · exact hend
  · exact hend

theorem observeChange_evolves (t : Fin 40) (on : Bool) (b : Burst) (s : State) :
    Evolves s (observeChange t on b s) := by
  unfold observeChange
  split_ifs
  · exact .refl s
  · exact takeObservation_state_evolves _ s

theorem provenChange_evolves (t : Fin 40) (on : Bool) (b : Burst) (s : State) : Evolves s (provenChange t on b s) := by
  have hrecorded : Evolves s (recordChange t on b s) := .of_kept (by simp)
  unfold provenChange
  exact (hrecorded.trans (observeChange_evolves t on b _)).trans (.of_kept (by simp))

theorem settle_evolves (t : Fin 40) (b : Burst) (s : State) : Evolves s (settle t b s) := by
  unfold settle
  dsimp only
  split_ifs
  · exact .of_kept (by simp)
  · exact .of_kept (by simp)
  · exact (Evolves.of_kept (by simp)).trans (provenChange_evolves t _ b _)

/-! ## Select periods (R187) -/

theorem clockOutAnswer_evolves (n : Nat) (s : State) : Evolves s (clockOutAnswer n s) := .of_kept (by simp)

theorem holdAnswer_evolves (a : List Octet) (s : State) : Evolves s (holdAnswer a s) := .of_kept (by simp)

theorem discardPeriod_evolves (n : Nat) (s : State) : Evolves s (discardPeriod n s) :=
  .of_kept (by simp [discardPeriod])

/-- A select period evolves as its command does. -/
theorem selectCommand_cases (early : Bool) (n : Nat) (wellFormed taken : Bool) (command : State → CommandEffect)
    (s : State) :
    Evolves s (selectCommand early n wellFormed taken command s) ∨
    (taken = true ∧ s.port.station ≠ .notQualified ∧
      selectCommand early n wellFormed taken command s = answered (command (clockOutAnswer n s))) := by
  have hrefused (r : RefusalCode) : Evolves s (answered (refuse r (clockOutAnswer n s))) :=
    (clockOutAnswer_evolves n s).trans (holdAnswer_evolves _ _)
  unfold selectCommand
  dsimp only
  split_ifs with hd
  · exact .inl (discardPeriod_evolves n s)
  · exact .inl (hrefused _)
  · exact .inl (hrefused _)
  · exact .inl (hrefused _)
  · refine .inr ⟨by simp_all, fun hs => hd ?_, rfl⟩
    simp [periodDiscarded, hs]

theorem selectCommand_evolves {early : Bool} {n : Nat} {wellFormed taken : Bool} {command : State → CommandEffect}
    (hc : ∀ u, Evolves u (command u).1) (s : State) :
    Evolves s (selectCommand early n wellFormed taken command s) := by
  rcases selectCommand_cases early n wellFormed taken command s with h | ⟨-, -, h⟩
  · exact h
  · rw [h]
    exact ((clockOutAnswer_evolves n s).trans (hc _)).trans (holdAnswer_evolves _ _)

theorem withSlot_evolves {command : Fin 256 → State → CommandEffect} (hc : ∀ slot u, Evolves u (command slot u).1)
    (n : Nat) (u : State) : Evolves u (withSlot n command u).1 := by
  unfold withSlot
  split
  · exact hc _ u
  · exact .refl u

/-- The fields of an entry to be loaded are those of the slot named. -/
theorem loadFields_slot {slot : Fin 256} {l : List Octet} {f : LoadFields} (h : loadFields slot l = some f) :
    f.slot = slot := by
  unfold loadFields at h
  simp only [Option.bind_eq_bind, Option.bind_eq_some_iff, Option.pure_def, Option.some.injEq] at h
  obtain ⟨_, -, _, -, _, -, _, -, _, -, _, -, _, -, _, -, rfl⟩ := h
  rfl

theorem loadSlot_evolves (slot : Fin 256) (p : List Octet) (s : State) : Evolves s (loadSlot slot p s).1 := by
  unfold loadSlot
  split_ifs with hslot
  · exact .refl s
  · split
    · next f hf =>
      split_ifs
      · obtain rfl := loadFields_slot hf
        exact .of_checker (acceptEntry_evolves (by simpa using hslot)) (by simp [done])
      · exact .refl s
    · exact .refl s

theorem takeOldest_evolves (n : Nat) (s : State) : Evolves s (takeOldest n s).1 := by
  unfold takeOldest
  split_ifs <;> exact .of_kept (by simp [refuse, done])

theorem peekAt_evolves (k : Nat) (s : State) : Evolves s (peekAt k s).1 := by
  unfold peekAt
  split <;> exact .refl s

theorem takeHead_evolves (s : State) : Evolves s (takeHead s).1 := by
  unfold takeHead
  split <;> exact .of_kept (by simp [refuse, done])

theorem readOrigin_evolves (n : Nat) (s : State) : Evolves s (readOrigin n s).1 := by
  unfold readOrigin
  split <;> exact .refl s

theorem clearConditions_evolves (n : Nat) (s : State) : Evolves s (clearConditions n s).1 := by
  unfold clearConditions
  split_ifs <;> exact .of_kept (by simp [refuse, done])

theorem setTimeTo_evolves (d : Date) (s : State) : Evolves s (setTimeTo d s).1 := by
  unfold setTimeTo
  split_ifs
  · exact .refl s
  · exact .of_agreement (.armed _ 0) (by simp [done])
  · exact .refl s

theorem setDialTo_evolves (line position : Nat) (s : State) : Evolves s (setDialTo line position s).1 := by
  unfold setDialTo
  split
  · unfold setDialAt
    split
    · exact .refl s
    · split_ifs <;> exact .of_kept (by simp [refuse, done])
  · exact .refl s

/-! ## The six actions that set a part whole -/

/-- POWER_ON, the end of qualification, and the host commands CONFIGURE, START, RESTART and CANCEL ENTRY carried out in a
select period of `n` octets with the answer `a`. -/
inductive ActsWhole (s : State) : State → Prop
  | powersOn : ActsWhole s (afterPowerOn s)
  | qualifies (h : s.port.station = .notQualified) : ActsWhole s (endQualification s)
  | configures (n : Nat) (a : List Octet) {i : ImageItem} (hs : s.port.station = .config)
      (hi : ∃ cls index v, imageItem cls index v = some i) :
      ActsWhole s (holdAnswer a (writeItem i (clockOutAnswer n s)))
  | starts (n : Nat) (a : List Octet) (hs : s.port.station = .config) (hb : badItem s.port.image = none) :
      ActsWhole s (holdAnswer a (carryOutStart (clockOutAnswer n s)))
  | restarts (n : Nat) (a : List Octet) (hs : s.port.station ≠ .notQualified) :
      ActsWhole s (holdAnswer a (restartBlocks (clockOutAnswer n s)))
  | cancels (n : Nat) (a : List Octet) (slot : Fin 256) :
      ActsWhole s (holdAnswer a { clockOutAnswer n s with checker := cancelSlot slot s.checker })

/-- What a command does: moves, or one of the six actions. -/
def Changes (s t : State) : Prop := Evolves s t ∨ ActsWhole s t

theorem configure_changes (p : SelectPeriod) (s : State) :
    Changes s (selectCommand p.early (p.params.length + 1) (configureForm p.params) (inConfig s)
      (configureItem p.params) s) := by
  rcases selectCommand_cases p.early (p.params.length + 1) (configureForm p.params) (inConfig s)
    (configureItem p.params) s with h | ⟨hconfig, -, h⟩
  · exact .inl h
  · rw [h]
    have hrefused (r : RefusalCode) : Evolves s (answered (refuse r (clockOutAnswer (p.params.length + 1) s))) :=
      (clockOutAnswer_evolves _ s).trans (holdAnswer_evolves _ _)
    unfold configureItem
    split
    · next i hi =>
      split_ifs
      · exact .inl (hrefused _)
      · exact .inr (.configures _ _ (by simpa [inConfig] using hconfig) ⟨_, _, _, hi⟩)
    · exact .inl (hrefused _)

theorem start_changes (p : SelectPeriod) (s : State) : Changes s (hostCommand p 0 (inConfig s) startStation s) := by
  rcases selectCommand_cases p.early (p.params.length + 1) (decide (p.params.length = 0)) (inConfig s) startStation s
    with h | ⟨hconfig, -, h⟩
  · exact .inl h
  · unfold hostCommand
    rw [h]
    unfold startStation
    split
    · exact .inl ((clockOutAnswer_evolves _ s).trans (holdAnswer_evolves _ _))
    · next hb => exact .inr (.starts _ _ (by simpa [inConfig] using hconfig) (by simpa using hb))

theorem restart_changes (p : SelectPeriod) (s : State) :
    Changes s (hostCommand p 0 (inConfigOrRun s) (fun s => done [] (restartBlocks s)) s) := by
  rcases selectCommand_cases p.early (p.params.length + 1) (decide (p.params.length = 0)) (inConfigOrRun s)
    (fun s => done [] (restartBlocks s)) s with h | ⟨-, hqualified, h⟩
  · exact .inl h
  · unfold hostCommand
    rw [h]
    exact .inr (.restarts _ _ hqualified)

theorem cancelEntry_changes (p : SelectPeriod) (s : State) :
    Changes s (hostCommand p 2 (inRun s) (withSlot (field p.params 0 2) cancelAt) s) := by
  rcases selectCommand_cases p.early (p.params.length + 1) (decide (p.params.length = 2)) (inRun s)
    (withSlot (field p.params 0 2) cancelAt) s with h | ⟨-, -, h⟩
  · exact .inl h
  · unfold hostCommand
    rw [h]
    have hrefused (r : RefusalCode) : Evolves s (answered (refuse r (clockOutAnswer (p.params.length + 1) s))) :=
      (clockOutAnswer_evolves _ s).trans (holdAnswer_evolves _ _)
    unfold withSlot
    split
    · unfold cancelAt
      split_ifs
      · exact .inr (.cancels _ _ _)
      · exact .inl (hrefused _)
    · exact .inl (hrefused _)

theorem execPortCommand_changes (c : PortCommand) (p : SelectPeriod) {s t : State}
    (h : execPortCommand c p s = .next t) : Changes s t := by
  cases c <;> obtain rfl := Host.Outcome.next.inj h
  case configure => exact configure_changes p s
  case start => exact start_changes p s
  case restart => exact restart_changes p s
  case readStatus => exact .inl (selectCommand_evolves (fun u => .refl u) s)
  case takeEvents => exact .inl (selectCommand_evolves (takeOldest_evolves _) s)
  case peekEvent => exact .inl (selectCommand_evolves (peekAt_evolves _) s)
  case takeDeviation => exact .inl (selectCommand_evolves takeHead_evolves s)
  case loadEntry => exact .inl (selectCommand_evolves (withSlot_evolves (fun slot => loadSlot_evolves slot _) _) s)
  case cancelEntry => exact cancelEntry_changes p s
  case readEntry => exact .inl (selectCommand_evolves (withSlot_evolves (fun _ u => .refl u) _) s)
  case readHeard => exact .inl (selectCommand_evolves (readOrigin_evolves _) s)
  case clearUrgent => exact .inl (selectCommand_evolves (clearConditions_evolves _) s)
  case setTime => exact .inl (selectCommand_evolves (setTimeTo_evolves _) s)
  case setDial => exact .inl (selectCommand_evolves (setDialTo_evolves _ _) s)

theorem answerOnlySelectPeriod_evolves (octets : Nat) (early : Bool) (s : State) :
    Evolves s (if periodDiscarded early s then discardPeriod octets s else clockOutAnswer octets s) := by
  split_ifs
  · exact discardPeriod_evolves octets s
  · exact clockOutAnswer_evolves octets s

theorem execUnknownCommand_changes (octets : List Octet) (early : Bool) {s t : State}
    (h : execUnknownCommand octets early s = .next t) : Changes s t := by
  unfold execUnknownCommand at h
  split at h
  · exact execPortCommand_changes _ _ h
  · split_ifs at h
    · obtain rfl := Host.Outcome.next.inj h
      exact .inl (answerOnlySelectPeriod_evolves 0 early s)
    · obtain rfl := Host.Outcome.next.inj h
      exact .inl (selectCommand_evolves (fun u => .refl u) s)

/-! ## Every command -/

/-- A command whose point has not come changes nothing (assumption log 1). -/
theorem Evolves.of_due {due : Prop} [Decidable due] {s t : State} (h : due → Evolves s t) :
    Evolves s (if due then t else s) := by
  split_ifs with hd
  · exact h hd
  · exact .refl s

theorem holdoverAging_evolves {s : State} (h : agingDue s = true) :
    Evolves s { s with agreement := { s.agreement with grade := agedGrade s } } := by
  simp only [agingDue, Bool.and_eq_true, beq_iff_eq, decide_eq_true_eq] at h
  obtain ⟨⟨-, hts⟩, hlt⟩ := h
  cases he : s.agreement.holdover with
  | none => simp [agedGrade, he] at hlt
  | some entry =>
    have hgrade : agedGrade s = holdoverGrade entry.grade (elapsedSince s.time.elapsed entry.elapsed) := by
      simp [agedGrade, he]
    rw [hgrade]
    exact .of_agreement (.aged hts he _) (by simp)

theorem silenceTimerExpiry_evolves {s : State} (h : silenceTimerDue s = true) :
    Evolves s (followTime { s with agreement := becomeSelfTimed s.agreement }) := by
  have hts : s.agreement.timeState = .acquiring := by
    unfold silenceTimerDue at h
    split at h <;> simp_all
  exact (Evolves.of_agreement (.selfTimed hts) (by simp)).trans (followTime_evolves _)

theorem exec_changes {c : Instr} {s t : State} (h : exec c s = .next t) : Changes s t := by
  cases c with
  | unknownCommand octets early => exact execUnknownCommand_changes octets early h
  | configure p => exact execPortCommand_changes .configure p h
  | start p => exact execPortCommand_changes .start p h
  | restart p => exact execPortCommand_changes .restart p h
  | readStatus p => exact execPortCommand_changes .readStatus p h
  | takeEvents p => exact execPortCommand_changes .takeEvents p h
  | peekEvent p => exact execPortCommand_changes .peekEvent p h
  | takeDeviation p => exact execPortCommand_changes .takeDeviation p h
  | loadEntry p => exact execPortCommand_changes .loadEntry p h
  | cancelEntry p => exact execPortCommand_changes .cancelEntry p h
  | readEntry p => exact execPortCommand_changes .readEntry p h
  | readHeard p => exact execPortCommand_changes .readHeard p h
  | clearUrgent p => exact execPortCommand_changes .clearUrgent p h
  | setTime p => exact execPortCommand_changes .setTime p h
  | setDial p => exact execPortCommand_changes .setDial p h
  | powerOn => exact Host.Outcome.next.inj h ▸ .inr .powersOn
  | qualificationEnd =>
    obtain rfl := Host.Outcome.next.inj h
    split_ifs with hd
    · simp only [qualificationDue, Bool.and_eq_true, beq_iff_eq] at hd
      exact .inr (.qualifies hd.1)
    · exact .inl (.refl s)
  | secondMark => exact Host.Outcome.next.inj h ▸ .inl (takeMark_evolves s)
  | correctionSecondEnd =>
    exact Host.Outcome.next.inj h ▸ .inl (.of_due fun _ => .of_time .correctionEnds (by simp))
  | holdoverEntry => exact Host.Outcome.next.inj h ▸ .inl (.of_due fun _ => takeMark_evolves s)
  | presenceDue => exact Host.Outcome.next.inj h ▸ .inl (.of_due fun _ => .of_kept (by simp))
  | beginReadyFrame =>
    obtain rfl := Host.Outcome.next.inj h
    split
    · exact .inl (.of_due fun _ => .of_kept (by simp))
    · exact .inl (.refl s)
  | frameOutcome how =>
    obtain rfl := Host.Outcome.next.inj h
    split
    · exact .inl (.of_kept (by simp))
    · exact .inl (.refl s)
  | receiveTimeFrame f => exact Host.Outcome.next.inj h ▸ .inl (frameEnds_evolves (endTimeFrame_evolves f s))
  | receiveNotice f => exact Host.Outcome.next.inj h ▸ .inl (frameEnds_evolves (endNotice_evolves f s))
  | receivePresence f => exact Host.Outcome.next.inj h ▸ .inl (frameEnds_evolves (.of_kept (by simp)))
  | receiveBadFrame why => exact Host.Outcome.next.inj h ▸ .inl (.of_due fun _ => .of_kept (by simp))
  | silenceExpiry peer => exact Host.Outcome.next.inj h ▸ .inl (.of_due fun _ => .of_kept (by simp))
  | silenceTimerExpiry => exact Host.Outcome.next.inj h ▸ .inl (.of_due silenceTimerExpiry_evolves)
  | holdoverAging => exact Host.Outcome.next.inj h ▸ .inl (.of_due holdoverAging_evolves)
  | referencePulse =>
    obtain rfl := Host.Outcome.next.inj h
    split
    · have hput : ∀ k, Evolves s (putLevel k true s) := fun k => .of_kept (by simp)
      split_ifs
      · exact .inl ((hput _).trans (meetPulse_evolves _))
      · exact .inl (hput _)
    · exact .inl (.refl s)
  | referenceLoss => exact Host.Outcome.next.inj h ▸ .inl (.of_due fun _ => loseReference_evolves s)
  | edge terminal level => exact Host.Outcome.next.inj h ▸ .inl (takeLevel_evolves terminal level s)
  | settleExpiry terminal =>
    obtain rfl := Host.Outcome.next.inj h
    split
    · exact .inl (.of_due fun _ => settle_evolves terminal _ s)
    · exact .inl (.refl s)
  | limitExpiry pair => exact Host.Outcome.next.inj h ▸ .inl (.of_due fun _ => .of_kept (by simp))
  | openFire =>
    exact Host.Outcome.next.inj h ▸ .inl (.of_due fun _ => .of_checker (runDeadlines_evolves s) (by simp))
  | missFire =>
    exact Host.Outcome.next.inj h ▸ .inl (.of_due fun _ => .of_checker (runDeadlines_evolves s) (by simp))
  | supplyChange supply =>
    obtain rfl := Host.Outcome.next.inj h
    split_ifs <;> exact .inl (.of_kept (by simp))
  | stepBoundary line =>
    exact Host.Outcome.next.inj h ▸ .inl (.of_time (by simpa [clearBoundary] using TimeMove.boundaryTaken line) (by simp))
  | pulseStart line => exact Host.Outcome.next.inj h ▸ .inl (.of_kept (by simp))
  | pulseEnd line =>
    obtain rfl := Host.Outcome.next.inj h
    split
    · exact .inl (.of_kept (by simp))
    · exact .inl (.refl s)
  | dominantLeadIn mark =>
    obtain rfl := Host.Outcome.next.inj h
    split_ifs
    · exact .inl (.refl s)
    · split <;> exact .inl (.of_kept (by simp))
  | lineIdle =>
    obtain rfl := Host.Outcome.next.inj h
    split_ifs
    · exact .inl (.refl s)
    · split <;> exact .inl (.of_kept (by simp))
  | answerOnlySelectPeriod octets early =>
    exact Host.Outcome.next.inj h ▸ .inl (answerOnlySelectPeriod_evolves octets early s)

/-- On an empty queue an event is queued, or one microsecond passes (assumption log 1). -/
theorem idleStep_evolves (s : State) : Evolves s (idleStep s) := by
  unfold idleStep
  split
  · exact passMicrosecond_evolves s
  · exact .of_kept (by simp)

/-- What a step does to a state without its queue: the command at the front, or the idle station's microsecond. -/
theorem step_changes {s t : State} (h : step s = .next t) :
    Evolves s t ∨ ∃ rest, ActsWhole { s with pending := rest } t := by
  unfold step at h
  split at h
  · next rest hq =>
    rcases exec_changes h with he | ha
    · exact .inl ⟨he.time, he.agreement, he.checker, he.station, he.image⟩
    · exact .inr ⟨rest, ha⟩
  · exact .inl (Host.Outcome.next.inj h ▸ idleStep_evolves s)

end Sys2Proof.Machine

/-! # The invariants of time base, station, grade, configuration and deadline list -/

namespace Sys2Proof.Machine

open Relation (ReflTransGen)

/-! ## The time base (R3 to R9, R15, R16) -/

theorem timeMoves_legal {t u : TimeBase} (m : ReflTransGen TimeMove t u) (h : TimeBaseLegal t) : TimeBaseLegal u := by
  induction m with
  | refl => exact h
  | tail _ last ih => exact last.legal ih

theorem timeMoves_qualified {t u : TimeBase} (m : ReflTransGen TimeMove t u) : u.qualified = t.qualified := by
  induction m with
  | refl => rfl
  | tail _ last ih => exact last.qualified.trans ih

theorem ActsWhole.timeLegal {s t : State} (a : ActsWhole s t) (h : TimeBaseLegal s.time) : TimeBaseLegal t.time := by
  cases a with
  | powersOn => exact timeBasePowerOn_legal
  | qualifies _ => exact qualificationEnd_legal h
  | configures n a _ _ => simpa using h
  | starts n a _ _ => simpa using h
  | restarts n a _ => exact timeAfterRestart_legal h
  | cancels n a slot => simpa using h

/-- Settles O54: a step's moves and whole actions each keep the ranges. -/
theorem stepKeepsTheTimeBaseLegal : Obligations.StepKeepsTheTimeBaseLegal := by
  intro s t hl hstep
  rcases step_changes hstep with he | ⟨rest, ha⟩
  · exact timeMoves_legal he.time hl
  · exact ha.timeLegal hl

/-! ## The configuration image (R85, R125, R169, R189) -/

theorem within_some {lo hi n m : Nat} (h : within lo hi n = some m) : lo ≤ m ∧ m ≤ hi := by
  unfold within at h
  split_ifs at h with hn
  exact Option.some.inj h ▸ hn

theorem terminalValue_legal {t : Fin 40} {l : List Octet} {v : Terminal} (h : terminalValue l = some v) :
    ItemLegal (.terminal t v) := by
  unfold terminalValue at h
  split at h
  case h_2 =>
    simp only [Option.bind_eq_bind, Option.bind_eq_some_iff, Option.pure_def, Option.some.injEq] at h
    obtain ⟨settle, hsettle, cls, -, priority, hpriority, rfl⟩ := h
    exact ⟨(within_some hsettle).1, (within_some hsettle).2, (within_some hpriority).2⟩
  case h_6 => simp at h
  all_goals
    obtain rfl := Option.some.inj h
    trivial

theorem pairValue_legal {k : Fin 8} {l : List Octet} {v : Option PairConfig} (h : pairValue l = some v) :
    ItemLegal (.pair k v) := by
  unfold pairValue at h
  split at h
  · obtain rfl := Option.some.inj h
    trivial
  · simp only [Option.bind_eq_bind, Option.bind_eq_some_iff, Option.pure_def, Option.some.injEq] at h
    obtain ⟨drive, -, detection, -, limit, hlimit, rfl⟩ := h
    exact within_some hlimit
  · simp at h

theorem stepPeriod_some {n m : Nat} (h : stepPeriod n = some m) : m = 30 ∨ m = 60 := by
  unfold stepPeriod at h
  split_ifs at h with hn
  exact Option.some.inj h ▸ hn

theorem pulseWidth_some {n m : Nat} (h : pulseWidth n = some m) : 100 ≤ m ∧ m ≤ 2000 ∧ m % 10 = 0 := by
  unfold pulseWidth at h
  split_ifs at h with hn
  exact Option.some.inj h ▸ hn

theorem clockValue_legal {k : Fin 4} {l : List Octet} {v : Option ClockConfig} (h : clockValue l = some v) :
    ItemLegal (.line k v) := by
  unfold clockValue at h
  split at h
  · obtain rfl := Option.some.inj h
    trivial
  · simp only [Option.bind_eq_bind, Option.bind_eq_some_iff, Option.pure_def, Option.some.injEq] at h
    obtain ⟨a, -, b, -, proving, -, step, hstep, width, hwidth, spacing, hspacing, hold, hhold, rfl⟩ := h
    obtain ⟨hw1, hw2, hw3⟩ := pulseWidth_some hwidth
    obtain ⟨hs1, hs2⟩ := within_some hspacing
    exact ⟨stepPeriod_some hstep, hw1, hw2, hw3, hs1, hs2, (within_some hhold).2⟩
  · simp at h

/-- An item read from class, index and value octets lies within its ranges (R189, R190). -/
theorem imageItem_legal {cls index : Nat} {v : List Octet} {i : ImageItem} (h : imageItem cls index v = some i) :
    ItemLegal i := by
  unfold imageItem at h
  split at h
  case h_7 =>
    simp only [Option.bind_eq_bind, Option.bind_eq_some_iff, Option.pure_def, Option.some.injEq] at h
    obtain ⟨t, -, value, hvalue, rfl⟩ := h
    exact terminalValue_legal hvalue
  case h_8 =>
    simp only [Option.bind_eq_bind, Option.bind_eq_some_iff, Option.pure_def, Option.some.injEq] at h
    obtain ⟨k, -, value, hvalue, rfl⟩ := h
    exact pairValue_legal hvalue
  case h_9 =>
    simp only [Option.bind_eq_bind, Option.bind_eq_some_iff, Option.pure_def, Option.some.injEq] at h
    obtain ⟨k, -, value, hvalue, rfl⟩ := h
    exact clockValue_legal hvalue
  case h_10 =>
    simp only [Option.bind_eq_bind, Option.bind_eq_some_iff, Option.pure_def, Option.some.injEq] at h
    obtain ⟨k, -, value, -, rfl⟩ := h
    trivial
  case h_11 => simp at h
  all_goals
    split_ifs at h
    obtain ⟨n, hn, rfl⟩ := Option.map_eq_some_iff.mp h
    obtain ⟨hlo, hhi⟩ := within_some hn
    simp only [ItemLegal]
    omega

theorem writeImage_legal {i : ImageItem} {img : Image} (hi : ItemLegal i) (h : ImageLegal img) :
    ImageLegal (writeImage i img) := by
  obtain ⟨hs1, hs2, hd, hw, hg, hl1, hl2, ha, hterminals, hpairs, hlines, haccept⟩ := h
  cases i with
  | station n => exact ⟨hi.1, hi.2, hd, hw, hg, hl1, hl2, ha, hterminals, hpairs, hlines, haccept⟩
  | lineDelay n => exact ⟨hs1, hs2, hi, hw, hg, hl1, hl2, ha, hterminals, hpairs, hlines, haccept⟩
  | watchLead n => exact ⟨hs1, hs2, hd, hi, hg, hl1, hl2, ha, hterminals, hpairs, hlines, haccept⟩
  | grace n => exact ⟨hs1, hs2, hd, hw, hi, hl1, hl2, ha, hterminals, hpairs, hlines, haccept⟩
  | silenceLimit n => exact ⟨hs1, hs2, hd, hw, hg, hi.1, hi.2, ha, hterminals, hpairs, hlines, haccept⟩
  | attention n => exact ⟨hs1, hs2, hd, hw, hg, hl1, hl2, hi, hterminals, hpairs, hlines, haccept⟩
  | terminal t v =>
    exact ⟨hs1, hs2, hd, hw, hg, hl1, hl2, ha,
      forall_set (p := fun t v => ItemLegal (.terminal t v)) hi hterminals, hpairs, hlines, haccept⟩
  | pair k v =>
    exact ⟨hs1, hs2, hd, hw, hg, hl1, hl2, ha, hterminals,
      forall_set (p := fun k v => ItemLegal (.pair k v)) hi hpairs, hlines, haccept⟩
  | line k v =>
    exact ⟨hs1, hs2, hd, hw, hg, hl1, hl2, ha, hterminals, hpairs,
      forall_set (p := fun k v => ItemLegal (.line k v)) hi hlines, haccept⟩
  | accept k v =>
    exact ⟨hs1, hs2, hd, hw, hg, hl1, hl2, ha, hterminals, hpairs, hlines,
      forall_set (p := fun k v => ItemLegal (.accept k v)) hi haccept⟩

theorem imageDefault_legal : ImageLegal imageDefault := by
  simp [ImageLegal, imageDefault, ItemLegal]

/-! ## Station state, time state and grade (R1, R47, R48, R64, R186) -/

theorem agreementMoves_notStarted {a b : Agreement} (m : ReflTransGen AgreementMove a b) :
    b.timeState = .notStarted ↔ a.timeState = .notStarted := by
  induction m with
  | refl => exact Iff.rfl
  | tail _ last ih => exact last.notStarted.trans ih

theorem agreementMoves_gradeLegal {a b : Agreement} (m : ReflTransGen AgreementMove a b) (h : GradeLegal a) :
    GradeLegal b := by
  induction m with
  | refl => exact h
  | tail _ last ih => exact last.gradeLegal ih

theorem Evolves.stationLegal {s t : State} (h : Evolves s t) (hs : StationLegal s) : StationLegal t := by
  obtain ⟨hqualified, hrun⟩ := hs
  refine ⟨?_, ?_⟩
  · rw [h.station, timeMoves_qualified h.time]
    exact hqualified
  · rw [h.station, hrun, ne_eq, ne_eq, agreementMoves_notStarted h.agreement]

theorem Evolves.configurationLegal {s t : State} (h : Evolves s t) (hc : ConfigurationLegal s) :
    ConfigurationLegal t := by
  unfold ConfigurationLegal
  rw [h.station, h.image]
  exact hc

/-- START puts the agreement controller into ACQUIRING at grade 15 (R48, R192). -/
theorem carryOutStart_rest (s : State) :
    (carryOutStart s).agreement = agreementAtStart s.time.elapsed s.agreement ∧
    (carryOutStart s).port = { s.port with station := .run } := by
  simp [carryOutStart]

theorem ActsWhole.stationLegal {s t : State} (a : ActsWhole s t) (h : StationLegal s) : StationLegal t := by
  obtain ⟨hqualified, hrun⟩ := h
  cases a with
  | powersOn =>
    simp [StationLegal, afterPowerOn, State.reset, servicePortPowerOn, timeBasePowerOn, agreementReset]
  | qualifies hs =>
    have hts : s.agreement.timeState = .notStarted := by simpa [hs] using hrun
    simp [StationLegal, endQualification, hts]
  | configures n a hs _ => simpa [StationLegal, writeItem] using And.intro hqualified hrun
  | starts n a hs _ =>
    have hq : s.time.qualified = true := by simpa [hs] using hqualified
    simp [StationLegal, carryOutStart_rest, agreementAtStart, hq]
  | restarts n a hs =>
    have hq : s.time.qualified = true := by simpa [hs] using hqualified
    simp [StationLegal, restartBlocks, agreementReset, timeAfterRestart, clockOutAnswer, hq]
  | cancels n a slot => simpa [StationLegal] using And.intro hqualified hrun

theorem ActsWhole.gradeLegal {s t : State} (a : ActsWhole s t) (h : GradeLegal s.agreement) :
    GradeLegal t.agreement := by
  cases a with
  | powersOn => simp [GradeLegal, afterPowerOn, State.reset, agreementReset]
  | qualifies _ => simpa using h
  | configures n a _ _ => simpa using h
  | starts n a _ _ => simp [GradeLegal, carryOutStart_rest, agreementAtStart]
  | restarts n a _ => simp [GradeLegal, restartBlocks, agreementReset]
  | cancels n a slot => simpa using h

theorem ActsWhole.configurationLegal {s t : State} (a : ActsWhole s t) (h : ConfigurationLegal s) :
    ConfigurationLegal t := by
  obtain ⟨himage, hrun⟩ := h
  cases a with
  | powersOn =>
    refine ⟨imageDefault_legal, ?_⟩
    simp [afterPowerOn, State.reset, servicePortPowerOn]
  | qualifies _ => exact ⟨himage, by simp [endQualification]⟩
  | configures n a hs hi =>
    obtain ⟨cls, index, v, hi⟩ := hi
    refine ⟨?_, by simp [writeItem, hs]⟩
    simpa [writeItem] using writeImage_legal (imageItem_legal hi) himage
  | starts n a _ hb =>
    simpa [ConfigurationLegal, carryOutStart_rest] using And.intro himage ((badItem_eq_none_iff _).mp hb)
  | restarts n a _ =>
    refine ⟨?_, by simp [restartBlocks]⟩
    simpa [restartBlocks] using himage
  | cancels n a slot => simpa [ConfigurationLegal] using And.intro himage hrun

/-- Settles O55: moves keep station state and image and each their grade; the six actions set them together. -/
theorem stepKeepsStationGradeAndConfiguration : Obligations.StepKeepsStationGradeAndConfiguration := by
  intro s t hs hg hc hstep
  rcases step_changes hstep with he | ⟨rest, ha⟩
  · exact ⟨he.stationLegal hs, agreementMoves_gradeLegal he.agreement hg, he.configurationLegal hc⟩
  · exact ⟨ha.stationLegal hs, ha.gradeLegal hg, ha.configurationLegal hc⟩

/-! ## The deadline list (R136) -/

/-- POWER_ON and RESTART empty the checker, CANCEL ENTRY removes a slot, and the other three leave it. -/
theorem ActsWhole.checker_cases {s t : State} (a : ActsWhole s t) :
    t.checker = s.checker ∨ t.checker = checkerReset ∨ ∃ slot, t.checker = cancelSlot slot s.checker := by
  cases a with
  | powersOn => exact .inr (.inl rfl)
  | qualifies _ => exact .inl (by simp)
  | configures n a _ _ => exact .inl (by simp)
  | starts n a _ _ => exact .inl (by simp)
  | restarts n a _ => exact .inr (.inl rfl)
  | cancels n a slot => exact .inr (.inr ⟨slot, rfl⟩)

/-- Settles O58: each move gives a slot the items its new entry calls for, in their place among those of the half cycle. -/
theorem stepKeepsTheDeadlineListLegal : Obligations.StepKeepsTheDeadlineListLegal := by
  intro s t hl hstep
  rcases step_changes hstep with he | ⟨rest, ha⟩
  · have hmoves := he.checker hl
    exact ⟨moves_legal hmoves hl, fun base hw ho => moves_ordered hl hmoves (fun _ => Advances.refl _) hw ho⟩
  · rcases ha.checker_cases with h | h | ⟨slot, h⟩ <;> rw [h]
    · exact ⟨hl, fun _ _ ho => ho⟩
    · exact ⟨checkerReset_legal, fun _ _ _ => checkerReset_ordered⟩
    · exact ⟨cancelSlot_legal hl, fun _ _ ho => cancelSlot_ordered ho⟩

end Sys2Proof.Machine

/-! # Centre time: dates, correction seconds, the advance and the discipline computation (chapter 1) -/

namespace Sys2Proof.Machine

/-! ## Dates on their cycle (R7) -/

theorem placeDate_eq (d : Date) : placeDate d = d.day * 86400000000 + d.us := by
  rw [placeDate, dayLength_eq]

/-- A sum is the one date in range whose place is the sum of the counts, modulo the cycle. -/
theorem placeDate_dateAdd (d : Date) (n : Int) :
    (placeDate (dateAdd d n) : Int) = ((placeDate d : Int) + n) % 5662310400000000 := by
  obtain ⟨q, hq, hday, hus⟩ := dateAdd_linear d n
  have hplace := placeDate_eq (dateAdd d n)
  omega

/-- The place of a date in range lies on the cycle (R7). -/
theorem placeDate_lt {d : Date} (hday : d.day < 65536) (hus : d.us < 86400000000) :
    placeDate d < 5662310400000000 := by
  rw [placeDate_eq]
  omega

theorem dateAdd_dateDiff {a b : Date} (hday : a.day < 65536) (hus : a.us < 86400000000) :
    dateAdd b (dateDiff a b) = a := by
  obtain ⟨-, -, -, hus'⟩ := dateAdd_linear b (dateDiff a b)
  obtain ⟨q, hq, -, -⟩ := dateDiff_linear a b
  have hlt := placeDate_lt hday hus
  have hplace := placeDate_dateAdd b (dateDiff a b)
  refine placeDate_injective hus' hus ?_
  generalize dateDiff a b = d at *
  generalize placeDate (dateAdd b d) = x at *
  generalize placeDate a = y at *
  generalize placeDate b = z at *
  omega

theorem dateDiff_dateAdd (a : Date) {n : Int} (hlo : -2831155200000000 ≤ n) (hhi : n < 2831155200000000) :
    dateDiff (dateAdd a n) a = n := by
  obtain ⟨q, hq, hdlo, hdhi⟩ := dateDiff_linear (dateAdd a n) a
  have hplace := placeDate_dateAdd a n
  generalize dateDiff (dateAdd a n) a = d at *
  omega

/-- Settles O17: places on the cycle are counted modulo its length. -/
theorem datesDifferAndAddOnTheirCycle : Obligations.DatesDifferAndAddOnTheirCycle := by
  intro a b haday haus hbday hbus
  have hplace (d : Date) : (placeDate d : Int) = (d.day : Int) * 86400000000 + d.us := by
    rw [placeDate_eq]
    push_cast
    rfl
  dsimp only
  refine ⟨?_, ?_, ?_, fun n => ?_, dateAdd_dateDiff haday haus, fun n hlo hhi => ?_⟩
  · obtain ⟨q, hq, -, -⟩ := dateDiff_linear a b
    rw [← hplace, ← hplace]
    omega
  · exact (dateDiff_linear a b).choose_spec.2.1
  · exact (dateDiff_linear a b).choose_spec.2.2
  · obtain ⟨hday, hus⟩ := dateAdd_legal b n
    rw [← hplace, ← hplace, placeDate_dateAdd]
    exact ⟨hday, hus, rfl⟩
  · exact dateDiff_dateAdd a hlo hhi

/-! ## The correction second (R8) -/

/-- A microsecond's share has the sign of the total, where the spread total rises (R8). -/
theorem correctionShare_eq (k : Int) (i : Nat) :
    correctionShare k i =
      if (i - 1) * k.natAbs / 1000000 < i * k.natAbs / 1000000 then k.sign else 0 := by
  unfold correctionShare
  split_ifs with h hpos
  · exact (Int.sign_eq_one_of_pos hpos).symm
  · have hne : k ≠ 0 := by
      rintro rfl
      simp at h
    exact (Int.sign_eq_neg_one_of_neg (by omega)).symm
  · rfl

/-- A total of at most a million sixty-fourths rises by 0 or 1 in a microsecond, and its shares add up to the spread
total (R8). -/
theorem sum_correctionShare {k : Int} (hk : k.natAbs ≤ 1000000) (n : Nat) :
    ((List.range n).map fun i => correctionShare k (i + 1)).sum = k.sign * ((n * k.natAbs / 1000000 : Nat) : Int) := by
  induction n with
  | zero => simp
  | succ n ih =>
    rw [List.range_succ, List.map_append, List.sum_append, ih, List.map_singleton, List.sum_singleton,
      correctionShare_eq, Nat.add_sub_cancel, Nat.add_one_mul]
    generalize n * k.natAbs = x
    split_ifs with h
    · have hrise : (x + k.natAbs) / 1000000 = x / 1000000 + 1 := by omega
      rw [hrise]
      push_cast
      ring
    · have hstay : (x + k.natAbs) / 1000000 = x / 1000000 := by omega
      rw [hstay, add_zero]

/-- Settles O16: the shares of a total add up to what is spread of it. -/
theorem correctionTotalIsSpreadExactly : Obligations.CorrectionTotalIsSpreadExactly := by
  intro trim slew ht hs
  have hlegal := (newCorrection_legal ht hs).1
  dsimp only
  have hsum := sum_correctionShare (k := (newCorrection trim slew).total) (by omega)
  refine ⟨rfl, rfl, hlegal, fun i _ => correctionShare_eq _ i, hsum, ?_⟩
  rw [hsum, Nat.mul_div_cancel_left _ (by norm_num), Int.sign_mul_natAbs]

/-! ## The advance (R4 to R6, R174) -/

/-- The idle station with no event due lets one microsecond pass (assumption log 1). -/
theorem step_of_idle {s : State} (hp : s.pending = []) (hd : dueEvents s = []) :
    step s = .next (passMicrosecond s) := by
  simp [step, hp, idleStep, hd]

/-- A carry into the day number moves the date on its cycle by nothing (R5, R7). -/
theorem placeDate_carryDay {day us : Nat} (hday : day < 65536) (hus : us < 2 * dayLength) :
    placeDate (carryDay day us) = (day * dayLength + us) % cycleLength := by
  rw [dayLength_eq] at *
  rw [cycleLength_eq, placeDate_eq, carryDay, dayLength_eq]
  split_ifs <;> dsimp only <;> omega

/-- Centre time after the advance, in sixty-fourths on the cycle (R4, R5). -/
theorem placed_advanceCentreTime {t : TimeBase} (lines : Vector (Option ClockConfig) 4) (h : TimeBaseLegal t) :
    ((placeDate (advanceCentreTime lines t).date * 64 + (advanceCentreTime lines t).fraction : Nat) : Int) =
      (((placeDate t.date * 64 + t.fraction : Nat) : Int) + 64 + comingShare t) % ((cycleLength * 64 : Nat) : Int) := by
  obtain ⟨hday, hus, hfraction, -⟩ := h
  have hle := advancedUs_le hfraction
  have hcarry := placeDate_carryDay (us := advancedUs t) hday (by rw [dayLength_eq] at *; omega)
  have hshare := comingShare_cases t
  have hadvanced : (advancedFraction t : Int) = t.fraction + 64 + comingShare t := by
    unfold advancedFraction
    omega
  simp only [advanceCentreTime, hcarry, placeDate_eq t.date]
  rw [cycleLength_eq, dayLength_eq]
  unfold advancedUs
  omega

/-- An advance reaches a multiple of a second or of a step period exactly when the number of the span within the day has
changed: it is at most two microseconds, and a day is made up of whole spans (R6, R174). -/
theorem advancePasses_iff {span : Nat} {t : TimeBase} (hspan : span = 1000000 ∨ span = 30000000 ∨ span = 60000000)
    (h : TimeBaseLegal t) :
    advancePasses span t = true ↔ (carryDay t.date.day (advancedUs t)).us / span ≠ t.date.us / span := by
  obtain ⟨-, hus, hfraction, -⟩ := h
  have hle := advancedUs_le hfraction
  have hge : t.date.us ≤ advancedUs t := Nat.le_add_right _ _
  rw [advancePasses, carryDay, decide_eq_true_eq]
  rw [dayLength_eq] at *
  rcases hspan with rfl | rfl | rfl <;> split_ifs <;> dsimp only <;> omega

theorem advanceTimeBase_of_unqualified {t : TimeBase} (lines : Vector (Option ClockConfig) 4)
    (h : t.qualified = false) : advanceTimeBase lines t = { t with elapsed := t.elapsed + 1 } := by
  simp [advanceTimeBase, h]

theorem advanceTimeBase_of_qualified {t : TimeBase} (lines : Vector (Option ClockConfig) 4)
    (h : t.qualified = true) :
    advanceTimeBase lines t = { advanceCentreTime lines t with elapsed := t.elapsed + 1 } := by
  simp [advanceTimeBase, h, advanceCentreTime]

/-- The second mark is due when the second of the day has changed (R6). -/
theorem markReached_eq {t : TimeBase} (h : TimeBaseLegal t) :
    markReached t =
      if (carryDay t.date.day (advancedUs t)).us / 1000000 = t.date.us / 1000000 then t.markDue
      else some ((carryDay t.date.day (advancedUs t)).us / 1000000) := by
  unfold markReached
  simp only [advancePasses_iff (.inl rfl) h, ne_eq, ite_not]

/-- The step boundary of a configured line is due when its target has changed (R174). -/
theorem boundaryReached_eq {t : TimeBase} {lines : Vector (Option ClockConfig) 4} {k : Fin 4} {c : ClockConfig}
    (hl : lines[k] = some c) (hstep : c.stepSeconds = 30 ∨ c.stepSeconds = 60) (h : TimeBaseLegal t) :
    boundaryReached lines t k =
      if (carryDay t.date.day (advancedUs t)).us / (c.stepSeconds * 1000000) = t.date.us / (c.stepSeconds * 1000000)
      then t.boundaryDue[k] else true := by
  have hspan : c.stepSeconds * 1000000 = 1000000 ∨ c.stepSeconds * 1000000 = 30000000 ∨
      c.stepSeconds * 1000000 = 60000000 := by omega
  have hpasses := advancePasses_iff hspan h
  unfold boundaryReached
  rw [hl]
  split_ifs with heq
  · have hnot : advancePasses (c.stepSeconds * 1000000) t = false :=
      Bool.eq_false_iff.mpr fun hp => hpasses.mp hp heq
    simp [hnot]
  · simp [hpasses.mpr heq]

theorem advanceCentreTime_boundaryDue (lines : Vector (Option ClockConfig) 4) (t : TimeBase) (k : Fin 4) :
    (advanceCentreTime lines t).boundaryDue[k] = boundaryReached lines t k := by
  simp [advanceCentreTime]

theorem boundaryReached_of_none {t : TimeBase} {lines : Vector (Option ClockConfig) 4} {k : Fin 4}
    (hl : lines[k] = none) : boundaryReached lines t k = t.boundaryDue[k] := by
  simp [boundaryReached, hl]

/-- Settles O15: the carries, the mark and the boundaries of one advance. -/
theorem centreTimeAdvancesAndCarries : Obligations.CentreTimeAdvancesAndCarries := by
  intro s hp hd hl
  refine ⟨_, step_of_idle hp hd, rfl, advanceTimeBase_of_unqualified _, fun hq => ?_⟩
  have htime : (passMicrosecond s).time =
      { advanceCentreTime s.port.image.lines s.time with elapsed := s.time.elapsed + 1 } :=
    advanceTimeBase_of_qualified _ hq
  obtain ⟨hday, hus, hfraction, -⟩ := advanceCentreTime_legal s.port.image.lines hl
  rw [htime]
  dsimp only
  refine ⟨rfl, hday, hus, hfraction, fun c hc => ?_, comingShare_cases _, placed_advanceCentreTime _ hl,
    markReached_eq hl, fun k hk => ?_, fun k c hk hstep => ?_⟩
  · simp [comingShare, hc]
  · exact (advanceCentreTime_boundaryDue _ _ k).trans (boundaryReached_of_none hk)
  · exact (advanceCentreTime_boundaryDue _ _ k).trans (boundaryReached_eq hk hstep hl)

/-! ## The discipline computation (R12 to R19) -/

theorem disciplineTime_deadBand {d : Int} (ts : TimeState) (t : TimeBase) (h : d.natAbs ≤ 1) :
    disciplineTime d ts t = (.deadBand, { t with outliers := [] }) := by
  simp [disciplineTime, h]

theorem disciplineTime_slew {d : Int} (ts : TimeState) (t : TimeBase) (hlo : 2 ≤ d.natAbs) (hhi : d.natAbs ≤ 500) :
    disciplineTime d ts t = (.slew (decide (d.natAbs ≤ 50)), slewBy d t) := by
  simp [disciplineTime, show ¬ d.natAbs ≤ 1 by omega, hhi]

theorem disciplineTime_settled {d : Int} {ts : TimeState} (t : TimeBase) (h : 500 < d.natAbs)
    (hs : settledTimeState ts = true) : disciplineTime d ts t = meetOutlier d t := by
  simp [disciplineTime, show ¬ d.natAbs ≤ 1 by omega, show ¬ d.natAbs ≤ 500 by omega, hs]

theorem disciplineTime_unsettled {d : Int} {ts : TimeState} (t : TimeBase) (h : 500 < d.natAbs)
    (hs : settledTimeState ts = false) : disciplineTime d ts t = (.step, stepBy d t) := by
  simp [disciplineTime, show ¬ d.natAbs ≤ 1 by omega, show ¬ d.natAbs ≤ 500 by omega, hs]

/-- The third consistent outlier steps centre time, from a settled time state or from another (R16, R17). -/
theorem disciplineTime_step {d : Int} {ts : TimeState} {t : TimeBase} (h : 500 < d.natAbs)
    (hs : settledTimeState ts = false ∨
      ∃ first second rest, t.outliers = first :: second :: rest ∧ (d - first).natAbs ≤ 500) :
    disciplineTime d ts t = (.step, stepBy d t) := by
  cases hts : settledTimeState ts with
  | false => exact disciplineTime_unsettled t h hts
  | true =>
    rw [disciplineTime_settled t h hts]
    rcases hs with hs | ⟨first, second, rest, ho, hnear⟩
    · simp [hts] at hs
    · simp [meetOutlier, ho, hnear]

/-- An outcome other than a step changes the time base alone (R12). -/
theorem discipline_of_kept {d : Int} {s : State} {o : Outcome} {t : TimeBase}
    (h : disciplineTime d s.agreement.timeState s.time = (o, t)) (ho : o ≠ .step) :
    discipline d s = (o, { s with time := t }) := by
  simp [discipline, h, ho]

/-- A step is announced (R19). -/
theorem discipline_of_step {d : Int} {s : State} {t : TimeBase}
    (h : disciplineTime d s.agreement.timeState s.time = (.step, t)) :
    discipline d s = (.step, announceStep s.time.date s.agreement.timeState { s with time := t }) := by
  simp [discipline, h]

/-- What a step offers and raises (R19). -/
theorem announceStep_eq (old : Date) (ts : TimeState) (s : State) :
    announceStep old ts s =
      let marked := offerRecord { date := s.time.date, epoch := s.time.epoch, timeState := ts }
        (.timeStep old s.time.date) s
      if settledTimeState ts = true then
        raiseUrgent .timeStepped { date := s.time.date, epoch := s.time.epoch } marked
      else marked := by
  simp [announceStep]

/-- Settles O18: each size of an offset by the equation of its case. -/
theorem disciplineFollowsTheSizeOfTheOffset : Obligations.DisciplineFollowsTheSizeOfTheOffset := by
  intro d s
  refine ⟨fun h => ?_, fun hlo hhi => ?_, fun h hs ho => ?_, fun first rest h hs ho hfar => ?_,
    fun first h hs ho hnear => ?_, fun h hs => ?_⟩
  · exact discipline_of_kept (disciplineTime_deadBand _ _ h) (by simp)
  · exact discipline_of_kept (disciplineTime_slew _ _ hlo hhi) (by simp)
  · refine discipline_of_kept ((disciplineTime_settled _ h hs).trans ?_) (by simp)
    simp [meetOutlier, ho]
  · refine discipline_of_kept ((disciplineTime_settled _ h hs).trans ?_) (by simp)
    simp [meetOutlier, ho, show ¬ (d - first).natAbs ≤ 500 by omega]
  · refine discipline_of_kept ((disciplineTime_settled _ h hs).trans ?_) (by simp)
    simp [meetOutlier, ho, hnear]
  · rw [discipline_of_step (disciplineTime_step h hs), announceStep_eq]
    simp only [stepBy, newCorrection, mul_zero, add_zero]

end Sys2Proof.Machine

/-! # Power-on, reset, qualification, RESTART and the idle station -/

namespace Sys2Proof.Machine

/-! ## The idle station (assumption log 1, 3) -/

theorem chooseEvent_mem (free : Nat) (first : Instr) (rest : List Instr) :
    chooseEvent free first rest ∈ first :: rest := by
  unfold chooseEvent
  split_ifs
  · exact List.mem_cons_self
  · have hlt : Config.coincidence free % (rest.length + 1) < (first :: rest).length :=
      Nat.mod_lt _ (Nat.succ_pos _)
    rw [List.getD_eq_getElem _ _ hlt]
    exact List.getElem_mem hlt

theorem advanceTimeBase_elapsed (lines : Vector (Option ClockConfig) 4) (t : TimeBase) :
    (advanceTimeBase lines t).elapsed = t.elapsed + 1 := by
  unfold advanceTimeBase
  dsimp only
  split_ifs <;> rfl

/-- Settles O2: the two cases of the idle step. -/
theorem idleStationTicksOrTakesADueEvent : Obligations.IdleStationTicksOrTakesADueEvent := by
  intro s hp
  refine ⟨fun hd => ⟨_, step_of_idle hp hd, advanceTimeBase_elapsed _ _, rfl⟩, fun hd => ?_⟩
  obtain ⟨first, rest, hcons⟩ := List.exists_cons_of_ne_nil hd
  refine ⟨_, hcons ▸ chooseEvent_mem s.freeCount first rest, s.freeCount + choiceCount rest,
    Nat.le_add_right _ _, ?_⟩
  simp [step, hp, idleStep, hcons]

/-! ## POWER_ON and the reset state -/

/-- Settles O4: the power-on values read off block by block. -/
theorem powerOnGivesThePowerOnValues : Obligations.PowerOnGivesThePowerOnValues := by
  intro s
  refine ⟨afterPowerOn s, rfl, rfl, ?time, ?agreement, ?line, ?inputs, ?pairs, ?events, ?checker, ?report, ?clocks,
    ?port⟩
  case time => simp [afterPowerOn, State.reset, timeBasePowerOn]
  case agreement => simp [afterPowerOn, State.reset, agreementReset]
  case line => simp [afterPowerOn, State.reset, linePowerOn]
  case inputs => simp [afterPowerOn, State.reset, inputReset]
  case pairs => simp [afterPowerOn, State.reset]
  case events => simp [afterPowerOn, State.reset, eventQueueReset]
  case checker => simp [afterPowerOn, State.reset, checkerReset]
  case report => simp [afterPowerOn, State.reset, reportReset]
  case clocks => simp [afterPowerOn, State.reset, clockLinePowerOn]
  case port => simp [afterPowerOn, State.reset, servicePortPowerOn, imageDefault]

theorem linePowerOn_legal :
    TransmitQueueLegal linePowerOn ∧ StandingLegal linePowerOn ∧ HeardLegal linePowerOn := by
  refine ⟨?_, ?_, ?_⟩
  · simp [TransmitQueueLegal, linePowerOn]
  · simp [StandingLegal, linePowerOn]
  · simp [HeardLegal, linePowerOn, heardNever]

/-- No urgent flag and no deviation: ATTENTION is off, whatever the threshold (R166, R168). -/
theorem attentionCalled_reset (threshold : Nat) : attentionCalled threshold reportReset = false := by
  simp [attentionCalled, reportReset, urgentClear]

theorem clockLinePowerOn_legal : ClockLineLegal clockLinePowerOn := by
  simp [ClockLineLegal, clockLinePowerOn]

/-- Settles O5: block by block, by the lemmas on the power-on values. -/
theorem resetStateIsLegal : Obligations.ResetStateIsLegal := by
  obtain ⟨hqueue, hstanding, hheard⟩ := linePowerOn_legal
  refine ⟨rfl, timeBasePowerOn_legal, ?station, ?grade, ⟨imageDefault_legal, ?run⟩, hqueue, hstanding, hheard, ?events,
    checkerReset_legal, checkerReset_ordered, (attentionCalled_reset _).symm, ?deviations, fun k => ?clocks,
    fun k => ?suspension⟩
  case station => simp [StationLegal, State.reset, servicePortPowerOn, timeBasePowerOn, agreementReset]
  case grade => simp [GradeLegal, State.reset, agreementReset]
  case run => simp [State.reset, servicePortPowerOn]
  case events => simp [EventQueueLegal, State.reset, eventQueueReset]
  case deviations => simp [DeviationsLegal, State.reset, reportReset]
  case clocks => simpa [State.reset] using clockLinePowerOn_legal
  case suspension => simp [State.reset, clockLinePowerOn, agreementReset, suspendingCause]

/-! ## The end of qualification and of a correction second (R1, R9) -/

theorem qualificationDue_iff (s : State) :
    qualificationDue s = true ↔ s.port.station = .notQualified ∧ 4000 ≤ s.time.elapsed.toNat := by
  simp [qualificationDue]

theorem correctionEnded_iff (t : TimeBase) :
    correctionEnded t = true ↔ ∃ c, t.correction = some c ∧ 1000000 < c.index := by
  unfold correctionEnded
  split <;> simp_all

/-- A new correction second with s = 0 has the total F (R8, R9). -/
theorem newCorrection_zero (trim : Int) : newCorrection trim 0 = { total := trim, index := 1 } := by
  simp [newCorrection]

/-- Settles O14: both commands at their points, and before them. -/
theorem qualificationAndCorrectionSecondsEnd : Obligations.QualificationAndCorrectionSecondsEnd := by
  intro s
  refine ⟨fun hs he => ?_, fun h => ?_, fun c hc hi => ?_, fun h => ?_⟩
  · have hdue := (qualificationDue_iff s).mpr ⟨hs, he⟩
    simp [exec, execQualificationEnd, hdue, endQualification, newCorrection]
  · have hnot : qualificationDue s = false := by
      rw [Bool.eq_false_iff, Ne, qualificationDue_iff]
      rintro ⟨hs, he⟩
      rcases h with h | h
      · exact h hs
      · omega
    simp [exec, execQualificationEnd, hnot]
  · have hended := (correctionEnded_iff s.time).mpr ⟨c, hc, hi⟩
    simp [exec, execCorrectionSecondEnd, hended, nextCorrection, newCorrection_zero]
  · have hnot : correctionEnded s.time = false := by
      rw [Bool.eq_false_iff, Ne, correctionEnded_iff]
      rintro ⟨c, hc, hi⟩
      have := h c hc
      omega
    simp [exec, execCorrectionSecondEnd, hnot]

/-! ## RESTART (R193) -/

/-- RESTART in a select period without parameters, in CONFIG or in RUN. -/
theorem exec_restart {s : State} (hs : s.port.station ≠ .notQualified) :
    exec (.restart { params := [], early := false }) s =
      .next (answered (done [] (restartBlocks (clockOutAnswer 1 s)))) := by
  have htaken : inConfigOrRun s = true := by
    unfold inConfigOrRun inConfig inRun
    cases h : s.port.station <;> simp_all
  exact congrArg _ (selectCommand_taken hs (by simp) rfl htaken)

/-- Settles O12: `restartBlocks` read off block by block. -/
theorem restartResetsEveryBlockAndKeepsTheTime : Obligations.RestartResetsEveryBlockAndKeepsTheTime := by
  intro s hs
  refine ⟨_, exec_restart hs, rfl, rfl, rfl, ?time, rfl, ?line, ?inputs, ?pairs, rfl, rfl, rfl, ?clocks, ?rest⟩
  case time => simp [answered, done, restartBlocks, clockOutAnswer, timeAfterRestart, newCorrection_zero]
  case line =>
    have howner : frameAfterRestart = fun f => { f with owner := .noBlock } := rfl
    simp [answered, done, restartBlocks, clockOutAnswer, lineAfterRestart, linePowerOn, howner]
  case inputs => simp [answered, done, restartBlocks, inputReset]
  case pairs => simp [answered, done, restartBlocks]
  case clocks => simp [answered, done, restartBlocks, clockAfterRestart]
  case rest => simp [answered, done]

end Sys2Proof.Machine

/-! # The own mark, the reference pulse and the heard winner -/

namespace Sys2Proof.Machine

/-! ## The own second mark (R6, R28, R49, R51, R114) -/

theorem takeMark_of_none {s : State} (h : s.time.markDue = none) : takeMark s = s := by
  simp [takeMark, h]

theorem takeMark_outside_run {s : State} {second : Nat} (h : s.time.markDue = some second)
    (hs : s.port.station ≠ .run) : takeMark s = clearMark s := by
  have hr : inRun s = false := by simpa [inRun] using hs
  simp [takeMark, h, hr]

theorem takeMark_inRun {s : State} {second : Nat} (h : s.time.markDue = some second) (hs : s.port.station = .run) :
    takeMark s = markInRun second (clearMark s) := by
  have hr : inRun s = true := by simp [inRun, hs]
  simp [takeMark, h, hr]

/-- Contention and PRESENCE due point leave the agreement controller as the close of the second left it. -/
theorem markInRun_agreement (second : Nat) (s : State) :
    (markInRun second s).agreement = (closeSecond s).agreement := by
  unfold markInRun
  dsimp only
  split_ifs <;> simp

/-- Settles O19: the close that does not enter HOLDOVER, then the contention on what it left. -/
theorem secondMarkClosesTheSecondAndContends : Obligations.SecondMarkClosesTheSecondAndContends := by
  intro s
  refine ⟨fun hm => congrArg _ (takeMark_of_none hm), fun second hm => ⟨fun hs => ?_, fun hs hfew => ?_⟩⟩
  · exact congrArg _ (takeMark_outside_run hm hs)
  · have hclose := closeSecond_of_few (s := clearMark s) hfew
    have htake := takeMark_inRun hm hs
    have hagreement : (takeMark s).agreement = { s.agreement with
        withoutSource := closedCount s.agreement, acceptedThisSecond := false } := by
      rw [htake, markInRun_agreement, hclose]
      rfl
    have hcontests := markInRun_contests (second := second) (s := clearMark s) hs
    refine ⟨takeMark s, rfl, takeMark_time s, hagreement, ?_⟩
    rw [hagreement, takeMark_time, htake]
    rw [hclose] at hcontests
    exact hcontests

/-! ## The reference pulse (R66) -/

/-- The pulse of a terminal that is the REFERENCE terminal. -/
theorem exec_referencePulse {s : State} {k : Fin 40} (hk : referenceTerminal s.port.image = some k) :
    exec .referencePulse s = .next (if inRun s then meetPulse (putLevel k true s) else putLevel k true s) := by
  simp [exec, execReferencePulse, hk]

theorem meetPulse_of_disarmed {s : State} (h : s.agreement.arming = none) : meetPulse s = s := by
  simp [meetPulse, h]

theorem meetPulse_of_spurious {s : State} {a : Arming} (h : s.agreement.arming = some a)
    (he : expectedDate s.time.elapsed a = none) : meetPulse s = s := by
  simp [meetPulse, h, he]

theorem meetPulse_of_expected {s : State} {a : Arming} {expected : Date} (h : s.agreement.arming = some a)
    (he : expectedDate s.time.elapsed a = some expected) : meetPulse s = takePulse expected a s := by
  simp [meetPulse, h, he]

/-- A pulse less than half a second after the last one has no expected date (R66). -/
theorem expectedDate_of_spurious {now : Elapsed} {a : Arming} (hl : a.lastExpected.isSome = true)
    (hn : pulseSeconds now a.lastPulse = 0) : expectedDate now a = none := by
  obtain ⟨d, hd⟩ := Option.isSome_iff_exists.mp hl
  simp [expectedDate, hd, hn]

theorem expectedDate_of_first {now : Elapsed} {a : Arming} (h : a.lastExpected = none) :
    expectedDate now a = some a.armedDate := by
  simp [expectedDate, h]

theorem expectedDate_of_later {now : Elapsed} {a : Arming} {last : Date} (h : a.lastExpected = some last)
    (hn : 1 ≤ pulseSeconds now a.lastPulse) :
    expectedDate now a = some (dateAdd last ((pulseSeconds now a.lastPulse * 1000000 : Nat) : Int)) := by
  simp [expectedDate, h, Nat.one_le_iff_ne_zero.mp hn]

/-- The agreement controller as a pulse that is taken finds it (R58, R66). -/
theorem takePulse_eq (expected : Date) (a : Arming) (s : State) :
    takePulse expected a s =
      giveOffset .reference 1 (dateDiff expected s.time.date)
        (markBeforeStep (dateDiff expected s.time.date) { s with agreement := { s.agreement with
          arming := some { a with
            lastExpected := some expected, pulses := min 65535 (a.pulses + 1), lastPulse := s.time.elapsed }
          silenceTimer := if s.agreement.timeState = .acquiring then some s.time.elapsed
            else s.agreement.silenceTimer } }) := by
  unfold takePulse restartSilence
  dsimp only [armingAfterPulse, saturatingAdd]
  split_ifs <;> rfl

/-- Two states that share these seven parts differ in the other seven alone. -/
theorem eq_of_kept {s t : State} (h : t.pending = s.pending ∧ t.pins = s.pins ∧ t.inputs = s.inputs ∧
    t.pairs = s.pairs ∧ t.supply = s.supply ∧ t.port = s.port ∧ t.freeCount = s.freeCount) :
    t = { s with
      time := t.time, agreement := t.agreement, line := t.line, events := t.events, checker := t.checker,
      report := t.report, clocks := t.clocks } := by
  obtain ⟨⟩ := s
  obtain ⟨⟩ := t
  simp_all

/-- Settles O23: the pulse's expected date, then its offset with all that follows. -/
theorem referencePulseIsDatedAndDisciplines : Obligations.ReferencePulseIsDatedAndDisciplines := by
  intro s k hk
  have hexec := exec_referencePulse hk
  dsimp only
  refine ⟨fun h => ?_, fun a hs ha => ⟨fun hl hn => ?_, fun expected hexpected => ?_⟩⟩
  · rw [hexec]
    split_ifs with hr
    · have hs : s.port.station = .run := by simpa [inRun] using hr
      exact congrArg _ (meetPulse_of_disarmed (h.resolve_left fun hn => hn hs))
    · rfl
  · have hr : inRun s = true := by simp [inRun, hs]
    rw [hexec, if_pos hr]
    exact congrArg _ (meetPulse_of_spurious (s := putLevel k true s) ha (expectedDate_of_spurious hl hn))
  · have hr : inRun s = true := by simp [inRun, hs]
    have hdate : expectedDate s.time.elapsed a = some expected := by
      rcases hexpected with ⟨hl, rfl⟩ | ⟨last, n, hl, rfl, hn, rfl⟩
      · exact expectedDate_of_first hl
      · exact expectedDate_of_later hl hn
    rw [hexec, if_pos hr, meetPulse_of_expected (s := putLevel k true s) ha hdate, takePulse_eq]
    exact ⟨_, rfl, giveOffset_taken _ _ _ _, fun h => giveOffset_of_none h, dueDeadline_giveOffset _ _ _ _,
      eq_of_kept (s := putLevel k true s) (by simp)⟩

/-! ## The heard winner (R53, R54) -/

/-- A station joins no mark and begins none within a gap (R28). -/
theorem contest_of_gap {s : State} (h : s.line.condition = .gap) : contest s = s := by
  simp [contest, joinCapture, h]

/-- A mark given within a gap leaves the line as it is (R28, R51). -/
theorem markInRun_of_gap (second : Nat) {s : State} (h : s.line.condition = .gap) :
    (markInRun second s).line.condition = .gap ∧ (markInRun second s).line.leadIn = s.line.leadIn ∧
    (markInRun second s).line.ownFrame = s.line.ownFrame := by
  have hclosed : (closeSecond s).line.condition = .gap := by simpa using h
  unfold markInRun
  simp [contest_of_gap hclosed, h]

theorem takeMark_of_gap {s : State} (h : s.line.condition = .gap) :
    (takeMark s).line.condition = .gap ∧ (takeMark s).line.leadIn = s.line.leadIn ∧
    (takeMark s).line.ownFrame = s.line.ownFrame := by
  unfold takeMark
  split
  · split_ifs
    · exact markInRun_of_gap _ (s := clearMark s) h
    · exact ⟨h, rfl, rfl⟩
  · exact ⟨h, rfl, rfl⟩

theorem markBeforeStep_of_gap (d : Int) {s : State} (h : s.line.condition = .gap) :
    (markBeforeStep d s).line.condition = .gap ∧ (markBeforeStep d s).line.leadIn = s.line.leadIn ∧
    (markBeforeStep d s).line.ownFrame = s.line.ownFrame := by
  unfold markBeforeStep
  split_ifs
  · exact takeMark_of_gap h
  · exact ⟨h, rfl, rfl⟩

/-- A good TIME frame of a peer in RUN: scored, its heard entry up to date, then judged (R33, R116, R117). -/
theorem endTimeFrame_of_peer {f : TimeFrame} {s : State} {k : Fin 62} (hs : s.port.station = .run)
    (hk : peerOf f.origin s = some k) :
    endTimeFrame f s =
      hearTimeFrame f (s.line.leadIn.bind (·.capture)) (steerHeard k (endGoodFrame f.origin s)) := by
  obtain ⟨-, hhanded, -⟩ := peerOf_some hk
  have hr : inRun (endGoodFrame f.origin s) = true := by simp [inRun, hs]
  have hk' : peerOf f.origin (endGoodFrame f.origin s) = some k := (peerOf_congr (by simp)).trans hk
  simp [endTimeFrame, hr, hhanded, hk']

/-- A frame that is a line source gives its offset, a mark that waits for a step first (R20, R54). -/
theorem hearTimeFrame_of_source {f : TimeFrame} {c : Stamp} {s : State}
    (h : lineSource f c { s with agreement := restartSilence s.time.elapsed s.agreement } = true) :
    hearTimeFrame f (some c) s =
      giveOffset .line f.rank.toNat (lineOffset f c s)
        (markBeforeStep (lineOffset f c s)
          { s with agreement := restartSilence s.time.elapsed s.agreement }) := by
  simp only [hearTimeFrame, h, if_true]
  rfl

/-- The conditions of R53 on a frame of a peer. -/
theorem lineSource_of_winner {f : TimeFrame} {c : Stamp} {s : State} {k : Fin 62} (hk : peerOf f.origin s = some k)
    (hts : takesLineSource s.agreement.timeState = true) (hlo : 1 ≤ f.rank.toNat) (hhi : f.rank.toNat ≤ 14)
    (hgrade : f.rank.toNat ≤ s.agreement.grade) (hreference : referenceRunning s.agreement = false)
    (hepoch : s.time.epoch = c.epoch) (hus : f.body.us.toNat < dayLength) : lineSource f c s = true := by
  obtain ⟨horigin, -, -⟩ := peerOf_some hk
  have hne : (f.origin != ownOrigin s) = true := by simpa using horigin
  simp [lineSource, hts, hne, hgrade, hreference, hepoch, timeFrameUsable, hlo, hhi, usInDay, hus]

/-- The restart of the silence timer, field by field (R58). -/
theorem restartSilence_eq (now : Elapsed) (a : Agreement) :
    restartSilence now a = { a with
      silenceTimer := if a.timeState = .acquiring then some now else a.silenceTimer } := by
  unfold restartSilence
  split_ifs <;> rfl

/-- The state in which a peer's good TIME frame is judged: scored, its heard entry up to date, the silence timer
restarted. -/
def stateAtJudging (f : TimeFrame) (k : Fin 62) (s : State) : State :=
  { steerHeard k (endGoodFrame f.origin s) with agreement := restartSilence s.time.elapsed s.agreement }

theorem stateAtJudging_line (f : TimeFrame) (k : Fin 62) (s : State) :
    (stateAtJudging f k s).line.condition = .gap ∧ (stateAtJudging f k s).line.leadIn = none ∧
    (stateAtJudging f k s).line.ownFrame = s.line.ownFrame ∧
    (stateAtJudging f k s).line.heard =
      s.line.heard.set k (hearFrame s.time.elapsed s.port.image.silenceLimit s.line.heard[k]) := by
  have hown : (endGoodFrame f.origin s).line.ownFrame = s.line.ownFrame := by
    unfold endGoodFrame
    dsimp only
    split_ifs <;> simp [gapBegins]
  simp [stateAtJudging, steerHeard, setHeard, hown]

/-- The winner's frame in RUN, with a capture, as a line source (R53, R54). -/
theorem endTimeFrame_of_winner {f : TimeFrame} {c : Stamp} {li : LeadIn} {s : State} {k : Fin 62}
    (hs : s.port.station = .run) (hli : s.line.leadIn = some li) (hc : li.capture = some c)
    (hk : peerOf f.origin s = some k) (hsource : lineSource f c s = true) :
    endTimeFrame f s =
      giveOffset .line f.rank.toNat (lineOffset f c s) (markBeforeStep (lineOffset f c s) (stateAtJudging f k s)) := by
  have hjudged : stateAtJudging f k s = { steerHeard k (endGoodFrame f.origin s) with
      agreement := restartSilence (steerHeard k (endGoodFrame f.origin s)).time.elapsed
        (steerHeard k (endGoodFrame f.origin s)).agreement } := by
    simp [stateAtJudging]
  have hoffset : lineOffset f c (steerHeard k (endGoodFrame f.origin s)) = lineOffset f c s := by
    simp [lineOffset]
  have hsource' : lineSource f c (stateAtJudging f k s) = true := by
    simpa [lineSource, stateAtJudging, referenceRunning, ownOrigin] using hsource
  rw [endTimeFrame_of_peer hs hk, hli, Option.bind_some, hc, hearTimeFrame_of_source (hjudged ▸ hsource'), hoffset,
    ← hjudged]

/-- Settles O24: the frame's end, then the offset of a line source on the state it left. -/
theorem heardWinnerDisciplinesTheStation : Obligations.HeardWinnerDisciplinesTheStation := by
  intro s f li c k hs hcan hgood hli hc hk hts hlo hhi hgrade hreference hepoch hus
  have hends : GoodFrameEnds false s (endGoodFrame f.origin s) := (peerOf_some hk).1 ▸ endGoodFrame_ends hs
  have hexec : exec (.receiveTimeFrame f) s = .next (giveOffset .line f.rank.toNat (lineOffset f c s)
      (markBeforeStep (lineOffset f c s) (stateAtJudging f k s))) := by
    have hsource := lineSource_of_winner hk hts hlo hhi hgrade hreference hepoch hus
    rw [← endTimeFrame_of_winner hs hli hc hk hsource]
    exact congrArg _ ((frameEnds_of_canEnd hs hcan rfl).trans (if_pos hgood))
  obtain ⟨hcondition, hleadIn, hownFrame, hheard⟩ := stateAtJudging_line f k s
  obtain ⟨hgap, hnoLeadIn, hnoFrame⟩ := markBeforeStep_of_gap (lineOffset f c s) hcondition
  have hline : (giveOffset .line f.rank.toNat (lineOffset f c s)
      (markBeforeStep (lineOffset f c s) (stateAtJudging f k s))).line.heard = (stateAtJudging f k s).line.heard := by
    simp
  have hjudged : stateAtJudging f k s = { endGoodFrame f.origin s with
      agreement := { s.agreement with
        silenceTimer := if s.agreement.timeState = .acquiring then some s.time.elapsed else s.agreement.silenceTimer }
      line := { (endGoodFrame f.origin s).line with heard := (stateAtJudging f k s).line.heard } } := by
    rw [← restartSilence_eq]
    rfl
  have htaken := giveOffset_taken .line f.rank.toNat (lineOffset f c s) (stateAtJudging f k s)
  refine ⟨_, _, hends, hexec, hline.trans hheard, ?_, fun h => ?_, ?_, ?_, ?_, dueDeadline_giveOffset _ _ _ _, ?_⟩
  · rw [hline, ← hjudged]
    exact htaken
  · have hnone := giveOffset_of_none (kind := .line) (grade := f.rank.toNat) (s := stateAtJudging f k s)
      (by simpa [stateAtJudging] using h)
    rw [show (stateAtJudging f k s).time = s.time by simp [stateAtJudging],
      show (stateAtJudging f k s).agreement = restartSilence s.time.elapsed s.agreement from rfl, restartSilence_eq]
      at hnone
    exact ⟨hnone.1, hnone.2.1⟩
  · simpa using hgap
  · simpa [hleadIn] using hnoLeadIn
  · simpa [hownFrame, hcan.2.1] using hnoFrame
  · exact eq_of_kept (by simp [stateAtJudging])

end Sys2Proof.Machine

/-! # The transmit queue and the standing (sections 2.5 to 2.7)

What R35 to R39 promise of queue, score, standing and good-frame run. Every command leaves them as they are, or changes
them by one of five operations: items settled or refreshed in place, an item joining, a score taken, an entry to
WITHDRAWN, a return from it. -/

namespace Sys2Proof.Machine

/-- The promises of R35, R36, R38, R39 and R41 together. -/
structure QueueAndStandingLegal (l : LineController) : Prop where
  queue : TransmitQueueLegal l
  standing : StandingLegal l

theorem QueueAndStandingLegal.congr {l m : LineController} (h : QueueAndStandingLegal l)
    (hm : m.txQueue = l.txQueue ∧ m.nextOrder = l.nextOrder ∧ m.standing = l.standing ∧ m.score = l.score ∧
      m.goodRun = l.goodRun) : QueueAndStandingLegal m := by
  obtain ⟨hqueue, horder, hstanding, hscore, hrun⟩ := hm
  refine ⟨?_, ?_⟩
  · simpa only [TransmitQueueLegal, hqueue, horder, hstanding] using h.queue
  · simpa only [StandingLegal, hstanding, hscore, hrun] using h.standing

/-- R44: the line controller at power-on, whatever its line's condition and its own frame. -/
theorem QueueAndStandingLegal.of_powerOn {m : LineController} (hm : m.txQueue = [] ∧ m.standing = .full ∧ m.score = 0 ∧
    m.goodRun = none) : QueueAndStandingLegal m := by
  obtain ⟨hqueue, hstanding, hscore, hrun⟩ := hm
  refine ⟨?_, ?_⟩
  · simp [TransmitQueueLegal, hqueue]
  · simp [StandingLegal, hstanding, hscore, hrun]

/-! ## Items in their order (R39) -/

/-- The parts of an item that its place in the queue rests on. -/
def SamePlace (a b : TxItem) : Prop :=
  b.order = a.order ∧ itemStrength b = itemStrength a ∧ isPresenceItem b = isPresenceItem a

theorem filterMap_presence_length {f : TxItem → Option TxItem} (hf : ∀ a b, f a = some b → SamePlace a b)
    (l : List TxItem) :
    ((l.filterMap f).filter isPresenceItem).length ≤ (l.filter isPresenceItem).length := by
  induction l with
  | nil => simp
  | cons a rest ih =>
    rw [List.filterMap_cons]
    cases hb : f a with
    | none => exact ih.trans ((List.sublist_cons_self a rest).filter _).length_le
    | some b =>
      obtain ⟨-, -, hpresence⟩ := hf a b hb
      simp only [List.filter_cons, hpresence]
      split_ifs
      · simpa using ih
      · exact ih

/-- Items that stay in their place, or leave, keep a queue legal (R42). -/
theorem TransmitQueueLegal.filterMap {l : LineController} (h : TransmitQueueLegal l) {f : TxItem → Option TxItem}
    (hf : ∀ a b, f a = some b → SamePlace a b) : TransmitQueueLegal { l with txQueue := l.txQueue.filterMap f } := by
  obtain ⟨hlength, hpresence, hwithdrawn, hpairs, hentries⟩ := h
  refine ⟨?_, (filterMap_presence_length hf _).trans hpresence, fun hw => ?_, ?_, fun b hb => ?_⟩
  · exact (List.length_filterMap_le _ _).trans hlength
  · simp [hwithdrawn hw]
  · refine List.Pairwise.filterMap f (fun a a' hq b hb b' hb' => ?_) hpairs
    obtain ⟨ho, hs, -⟩ := hf a b hb
    obtain ⟨ho', hs', -⟩ := hf a' b' hb'
    unfold queuedBefore at hq ⊢
    rwa [ho, hs, ho', hs']
  · obtain ⟨a, ha, hab⟩ := List.mem_filterMap.mp hb
    obtain ⟨ho, -, -⟩ := hf a b hab
    exact ho ▸ hentries a ha

theorem insertItem_pairwise {it : TxItem} {l : List TxItem} (h : l.Pairwise queuedBefore)
    (hentries : ∀ e ∈ l, e.order < it.order) : (insertItem it l).Pairwise queuedBefore := by
  induction l with
  | nil => simp [insertItem]
  | cons e rest ih =>
    obtain ⟨hbefore, hrest⟩ := List.pairwise_cons.mp h
    unfold insertItem
    split_ifs with hlt
    · refine List.pairwise_cons.mpr ⟨fun x hx => .inl ?_, h⟩
      rcases List.mem_cons.mp hx with rfl | hx
      · exact hlt
      · rcases hbefore x hx with hb | ⟨hb, -⟩ <;> omega
    · refine List.pairwise_cons.mpr ⟨fun x hx => ?_, ih hrest fun x hx => hentries x (by simp [hx])⟩
      rcases List.mem_cons.mp ((insertItem_perm it rest).mem_iff.mp hx) with rfl | hx
      · have horder := hentries e (by simp)
        unfold queuedBefore
        omega
      · exact hbefore x hx

/-- An item joins a queue with room, of a station that sends; a second PRESENCE item does not (R39, R41). -/
theorem TransmitQueueLegal.joinQueue {l : LineController} {it : TxItem} (h : TransmitQueueLegal l)
    (hstanding : l.standing ≠ .withdrawn) (hroom : l.txQueue.length < 16)
    (hnone : isPresenceItem it = true → l.txQueue.any isPresenceItem = false) :
    TransmitQueueLegal (joinQueue it l) := by
  obtain ⟨-, hpresence, -, hpairs, hentries⟩ := h
  have hperm := insertItem_perm { it with order := l.nextOrder } l.txQueue
  unfold Machine.joinQueue
  refine ⟨?_, ?_, fun hw => absurd hw hstanding, insertItem_pairwise hpairs hentries, fun x hx => ?_⟩
  · simp only [hperm.length_eq, List.length_cons]
    omega
  · rw [(hperm.filter _).length_eq, List.filter_cons]
    have hit : isPresenceItem { it with order := l.nextOrder } = isPresenceItem it := rfl
    rw [hit]
    split_ifs with hp
    · have hempty : l.txQueue.filter isPresenceItem = [] := by simpa using hnone hp
      simp [hempty]
    · exact hpresence
  · rcases List.mem_cons.mp (hperm.mem_iff.mp hx) with rfl | hx
    · exact Nat.lt_succ_self _
    · exact Nat.lt_succ_of_lt (hentries x hx)

theorem refreshPresence_samePlace (b : PresenceBody) (l : LineController) (it : TxItem) :
    SamePlace it (refreshPresence b l it) := by
  unfold refreshPresence
  split_ifs with hp
  · cases hbody : it.body <;> simp_all [SamePlace, isPresenceItem, itemStrength, itemKind]
  · exact ⟨rfl, rfl, rfl⟩

/-- An item that an outcome leaves differs in attempts and refresh mark alone (R42). -/
theorem itemAfter_samePlace {how : FrameEnd} {a b : TxItem} (h : itemAfter how a = some b) : SamePlace a b := by
  have hobjected : itemAfterObjection a = some b → SamePlace a b := by
    unfold itemAfterObjection
    intro h
    split at h <;> split_ifs at h <;> obtain rfl := Option.some.inj h <;> exact ⟨rfl, rfl, rfl⟩
  cases how with
  | lost => obtain rfl := Option.some.inj h; exact ⟨rfl, rfl, rfl⟩
  | collided => exact hobjected h
  | objected => exact hobjected h
  | completed =>
    change itemAfterCompletion a = some b at h
    unfold itemAfterCompletion at h
    split at h
    · simp at h
    · split_ifs at h
      obtain rfl := Option.some.inj h
      exact ⟨rfl, rfl, rfl⟩

/-! ## The operations on the queue -/

theorem queuePresence_legal (b : PresenceBody) {l : LineController} (h : QueueAndStandingLegal l) :
    QueueAndStandingLegal (queuePresence b l) := by
  unfold queuePresence
  split_ifs with hw hany hroom
  · exact h
  · have hmap : l.txQueue.map (refreshPresence b l) = l.txQueue.filterMap (some ∘ refreshPresence b l) := by simp
    rw [hmap]
    refine ⟨h.queue.filterMap fun a c hc => ?_, h.standing⟩
    obtain rfl := Option.some.inj hc
    exact refreshPresence_samePlace b l a
  · exact ⟨h.queue.joinQueue hw hroom fun _ => by simpa using hany, h.standing⟩
  · exact h

theorem settleItem_line (how : FrameEnd) (order : Nat) (s : State) :
    (settleItem how order s).line = { s.line with txQueue := queueAfter how order s.line.txQueue } := by
  unfold settleItem
  dsimp only
  split <;> simp

theorem settleItem_legal (how : FrameEnd) (order : Nat) {s : State} (h : QueueAndStandingLegal s.line) :
    QueueAndStandingLegal (settleItem how order s).line := by
  rw [settleItem_line]
  refine ⟨h.queue.filterMap fun a b hab => ?_, h.standing⟩
  split_ifs at hab
  · exact itemAfter_samePlace hab
  · obtain rfl := Option.some.inj hab
    exact ⟨rfl, rfl, rfl⟩

theorem noticeAnswer_eq_queued_iff (l : LineController) :
    noticeAnswer l = .queued ↔ l.standing ≠ .withdrawn ∧ l.txQueue.length < 16 := by
  unfold noticeAnswer
  split_ifs <;> simp_all

theorem offerNotice_legal (urgent : Bool) (priority : Nat) (body : NoticeBody) (n : SeqNumber) {s : State}
    (h : QueueAndStandingLegal s.line) : QueueAndStandingLegal (offerNotice urgent priority body n s).line := by
  unfold offerNotice
  dsimp only
  split_ifs with hq
  · obtain ⟨hw, hroom⟩ := (noticeAnswer_eq_queued_iff _).mp hq
    simp only [reportBroadcast_frame]
    exact ⟨h.queue.joinQueue hw hroom (by simp [isPresenceItem]), h.standing⟩
  · simpa using h

/-! ## The operations on score and standing -/

theorem enterWithdrawn_legal {s : State} (hlow : 192 ≤ s.line.score) (hhigh : s.line.score ≤ 255) :
    QueueAndStandingLegal (enterWithdrawn s).line := by
  rw [enterWithdrawn_line]
  refine ⟨?_, ?_⟩
  · simp [TransmitQueueLegal]
  · simp [StandingLegal, hlow, hhigh]

/-- A score taken outside WITHDRAWN gives the standing of R36. -/
theorem takeScore_legal {score : Nat} {s : State} (h : QueueAndStandingLegal s.line)
    (hstanding : s.line.standing ≠ .withdrawn) (hscore : score ≤ 255) :
    QueueAndStandingLegal (takeScore score s).line := by
  unfold takeScore
  dsimp only
  split_ifs with hlow
  · exact enterWithdrawn_legal hlow hscore
  · obtain ⟨hlength, hpresence, -, hpairs, hentries⟩ := h.queue
    obtain ⟨-, -, -, -, hrun⟩ := h.standing
    have hnone : s.line.goodRun.isSome ≠ true := fun hsome => hstanding (hrun.mp hsome)
    have hbelow : score < 192 := by omega
    refine ⟨⟨hlength, hpresence, ?_, hpairs, hentries⟩, hscore, ?_⟩
    · simp only [standingOfScore]
      split_ifs <;> simp
    · simp only [standingOfScore]
      split_ifs with hfull
      · simp [hfull, hnone]
      · have hquiet : 96 ≤ score := by omega
        simp [hquiet, hnone, Nat.le_of_lt_succ hbelow]

theorem duplicateStation_legal {s : State} (h : QueueAndStandingLegal s.line) :
    QueueAndStandingLegal (duplicateStation s).line := by
  unfold duplicateStation
  dsimp only
  split_ifs
  · simpa using h
  · exact enterWithdrawn_legal (by simp) (by simp)

theorem duplicateStation_standing (s : State) : (duplicateStation s).line.standing = .withdrawn := by
  unfold duplicateStation
  dsimp only
  split_ifs with hw
  · exact hw
  · simp

/-- A good-frame run of a WITHDRAWN station may be set (R38). -/
theorem QueueAndStandingLegal.setRun {l : LineController} (h : QueueAndStandingLegal l)
    (hw : l.standing = .withdrawn) (n : Nat) : QueueAndStandingLegal { l with goodRun := some n } := by
  obtain ⟨hscore, hfull, hquiet, hlow, -⟩ := h.standing
  exact ⟨h.queue, hscore, hfull, hquiet, hlow, by simp [hw]⟩

theorem scoreUp_le (n score : Nat) : scoreUp n score ≤ 255 := Nat.min_le_left _ _

theorem score_pred_le {l : LineController} (h : QueueAndStandingLegal l) : l.score - 1 ≤ 255 := by
  obtain ⟨hscore, -⟩ := h.standing
  omega

theorem scoreOwnFrame_legal (how : FrameEnd) {s : State} (h : QueueAndStandingLegal s.line) :
    QueueAndStandingLegal (scoreOwnFrame how s).line := by
  have hcounted (n : Nat) : QueueAndStandingLegal { s.line with collisions := n } := h.congr (by simp)
  cases how with
  | lost => exact h
  | completed =>
    simp only [scoreOwnFrame, beq_iff_eq]
    split_ifs with hw
    · exact hcounted 0
    · exact takeScore_legal (hcounted 0) hw (score_pred_le h)
  | objected =>
    simp only [scoreOwnFrame, beq_iff_eq]
    split_ifs with hw
    · exact hcounted 0
    · exact takeScore_legal (hcounted 0) hw (scoreUp_le _ _)
  | collided =>
    simp only [scoreOwnFrame, beq_iff_eq]
    split_ifs with hthird hw
    · exact duplicateStation_legal (hcounted 0)
    · exact hcounted _
    · exact takeScore_legal (hcounted _) hw (scoreUp_le _ _)

theorem runTowardReturn_legal {s : State} (h : QueueAndStandingLegal s.line)
    (hw : s.line.standing = .withdrawn) : QueueAndStandingLegal (runTowardReturn s).line := by
  unfold runTowardReturn
  dsimp only
  split_ifs
  · obtain ⟨-, -, hempty, -⟩ := h.queue
    exact .of_powerOn ⟨hempty hw, rfl, rfl, rfl⟩
  · exact h.setRun hw _

theorem scoreGoodFrame_legal (own remainder : Bool) {s : State} (h : QueueAndStandingLegal s.line) :
    QueueAndStandingLegal (scoreGoodFrame own remainder s).line := by
  unfold scoreGoodFrame
  dsimp only
  split_ifs with hown hremainder hw
  · exact (duplicateStation_legal h).setRun (duplicateStation_standing s) 0
  · exact h
  · exact runTowardReturn_legal h hw
  · exact takeScore_legal h hw (score_pred_le h)

theorem scoreBadFrame_legal (remainder : Bool) {s : State} (h : QueueAndStandingLegal s.line) :
    QueueAndStandingLegal (scoreBadFrame remainder s).line := by
  unfold scoreBadFrame
  split_ifs with hw hremainder
  · exact h.setRun hw 0
  · exact h
  · exact takeScore_legal h hw (scoreUp_le _ _)

/-! ## Frames -/

theorem endGoodFrame_legal (origin : BitVec 6) {s : State} (h : QueueAndStandingLegal s.line) :
    QueueAndStandingLegal (endGoodFrame origin s).line := by
  have hgap : QueueAndStandingLegal (gapBegins s.line) := h.congr (by simp [gapBegins])
  unfold endGoodFrame
  dsimp only
  split_ifs
  · exact scoreGoodFrame_legal _ _ hgap
  · exact hgap

theorem endBadFrame_legal (why : BadFrame) {s : State} (h : QueueAndStandingLegal s.line) :
    QueueAndStandingLegal (endBadFrame why s).line := by
  have hended (objects : Bool) : QueueAndStandingLegal (badFrameEnds objects s.line) := h.congr (by simp [badFrameEnds])
  unfold endBadFrame
  dsimp only
  split_ifs
  · exact scoreBadFrame_legal _ (hended _)
  · exact hended _

theorem frameEnds_legal {isTime checkAgrees : Bool} {good : State → State} {s : State}
    (h : QueueAndStandingLegal s.line) (hgood : QueueAndStandingLegal (good s).line) :
    QueueAndStandingLegal (frameEnds isTime checkAgrees good s).line := by
  unfold frameEnds
  split_ifs
  · exact hgood
  · exact endBadFrame_legal _ h
  · exact endBadFrame_legal _ h
  · exact h

theorem endOwnFrame_legal (how : FrameEnd) (f : OwnFrame) {s : State} (h : QueueAndStandingLegal s.line) :
    QueueAndStandingLegal (endOwnFrame how f s).line := by
  have hafter (scored : Bool) : QueueAndStandingLegal (lineAfterOwn how scored s.line) :=
    h.congr (by simp [lineAfterOwn])
  unfold endOwnFrame
  dsimp only
  split_ifs
  · refine scoreOwnFrame_legal how ?_
    cases f.owner with
    | queueItem order => exact settleItem_legal how order (hafter _)
    | agreement => exact hafter _
    | noBlock => exact hafter _
  · exact hafter _

/-- The heard table and the hit counts are no part of queue and standing. -/
theorem steerHeard_line_eq (k : Fin 62) (s : State) :
    (steerHeard k s).line = { s.line with
      heard := s.line.heard.set k (hearFrame s.time.elapsed s.port.image.silenceLimit s.line.heard[k]) } := rfl

theorem acceptNotice_line (f : NoticeFrame) (s : State) :
    (acceptNotice f s).line = { s.line with hits := (acceptNotice f s).line.hits } := by
  unfold acceptNotice
  split
  · dsimp only
    split_ifs <;> simp
  · rfl

theorem steerNotice_line (k : Fin 62) (f : NoticeFrame) (s : State) :
    (steerNotice k f s).line =
      { s.line with heard := (steerNotice k f s).line.heard, hits := (steerNotice k f s).line.hits } := by
  unfold steerNotice
  dsimp only
  split_ifs
  · rfl
  · rw [acceptNotice_line]
    rfl
  · rfl

theorem endNotice_legal (f : NoticeFrame) {s : State} (h : QueueAndStandingLegal s.line) :
    QueueAndStandingLegal (endNotice f s).line := by
  have hend := endGoodFrame_legal f.origin h
  unfold endNotice
  dsimp only
  split
  · split_ifs
    · rw [steerNotice_line]
      exact hend.congr (by simp)
    · exact hend
  · exact hend

theorem endPresence_legal (f : PresenceFrame) {s : State} (h : QueueAndStandingLegal s.line) :
    QueueAndStandingLegal (endPresence f s).line := by
  have hend := endGoodFrame_legal f.origin h
  unfold endPresence
  dsimp only
  split
  · split_ifs
    · exact hend.congr ⟨rfl, rfl, rfl, rfl, rfl⟩
    · exact hend
  · exact hend

theorem endTimeFrame_legal (f : TimeFrame) {s : State} (h : QueueAndStandingLegal s.line) :
    QueueAndStandingLegal (endTimeFrame f s).line := by
  have hend := endGoodFrame_legal f.origin h
  unfold endTimeFrame
  dsimp only
  split_ifs
  · split
    · exact hend.congr (by simp [steerHeard_line_eq])
    · exact hend.congr (by simp)
  · exact hend

/-! ## The proven change, and select periods -/

theorem shareChange_legal (t : Fin 40) (urgent : Bool) (priority : Nat) (on : Bool) (b : Burst) {s : State}
    (h : QueueAndStandingLegal s.line) : QueueAndStandingLegal (shareChange t urgent priority on b s).line := by
  unfold shareChange
  refine offerNotice_legal _ _ _ _ ?_
  simp only [offerRecord_frame]
  exact h.congr (by simp)

theorem provenChange_line (t : Fin 40) (on : Bool) (b : Burst) (s : State) :
    (provenChange t on b s).line = (recordChange t on b s).line := by
  simp [provenChange]

theorem recordChange_legal (t : Fin 40) (on : Bool) (b : Burst) {s : State} (h : QueueAndStandingLegal s.line) :
    QueueAndStandingLegal (recordChange t on b s).line := by
  unfold recordChange
  dsimp only
  split
  · simpa using h
  · exact shareChange_legal _ _ _ _ _ h
  · exact shareChange_legal _ _ _ _ _ h

theorem settle_legal (t : Fin 40) (b : Burst) {s : State} (h : QueueAndStandingLegal s.line) :
    QueueAndStandingLegal (settle t b s).line := by
  unfold settle
  dsimp only
  split_ifs
  · simpa using h
  · simpa using h
  · rw [provenChange_line]
    exact recordChange_legal t _ b (by simpa using h)

theorem selectCommand_legal {early : Bool} {n : Nat} {wellFormed taken : Bool} {command : State → CommandEffect}
    (hc : ∀ u : State, QueueAndStandingLegal u.line → QueueAndStandingLegal (command u).1.line) {s : State}
    (h : QueueAndStandingLegal s.line) :
    QueueAndStandingLegal (selectCommand early n wellFormed taken command s).line := by
  unfold selectCommand
  dsimp only
  split_ifs
  · simpa using h
  · simpa [answered, refuse] using h
  · simpa [answered, refuse] using h
  · simpa [answered, refuse] using h
  · simpa [answered] using hc (clockOutAnswer n s) (by simpa using h)

/-- A command's meaning that leaves the line controller. -/
theorem selectCommand_legal_of_line {early : Bool} {n : Nat} {wellFormed taken : Bool}
    {command : State → CommandEffect} (hc : ∀ u : State, (command u).1.line = u.line) {s : State}
    (h : QueueAndStandingLegal s.line) :
    QueueAndStandingLegal (selectCommand early n wellFormed taken command s).line :=
  selectCommand_legal (fun u hu => (hc u).symm ▸ hu) h

theorem configureItem_legal (p : List Octet) {s : State} (h : QueueAndStandingLegal s.line) :
    QueueAndStandingLegal (configureItem p s).1.line := by
  unfold configureItem
  split
  · split_ifs
    · exact h
    · exact h.congr ⟨rfl, rfl, rfl, rfl, rfl⟩
  · exact h

theorem startStation_legal {s : State} (h : QueueAndStandingLegal s.line) :
    QueueAndStandingLegal (startStation s).1.line := by
  unfold startStation
  split
  · exact h
  · exact .of_powerOn ⟨rfl, rfl, rfl, rfl⟩

theorem withSlot_line {command : Fin 256 → State → CommandEffect} (hc : ∀ slot u, (command slot u).1.line = u.line)
    (n : Nat) (u : State) : (withSlot n command u).1.line = u.line := by
  unfold withSlot
  split
  · exact hc _ u
  · rfl

theorem loadSlot_line (slot : Fin 256) (p : List Octet) (u : State) : (loadSlot slot p u).1.line = u.line := by
  unfold loadSlot
  split_ifs
  · rfl
  · split
    · split_ifs
      · simp [done]
      · rfl
    · rfl

theorem takeOldest_line (n : Nat) (u : State) : (takeOldest n u).1.line = u.line := by
  unfold takeOldest
  split_ifs <;> rfl

theorem peekAt_line (k : Nat) (u : State) : (peekAt k u).1.line = u.line := by
  unfold peekAt
  split <;> rfl

theorem takeHead_line (u : State) : (takeHead u).1.line = u.line := by
  unfold takeHead
  split <;> rfl

theorem cancelAt_line (slot : Fin 256) (u : State) : (cancelAt slot u).1.line = u.line := by
  unfold cancelAt
  split_ifs <;> rfl

theorem readOrigin_line (n : Nat) (u : State) : (readOrigin n u).1.line = u.line := by
  unfold readOrigin
  split <;> rfl

theorem clearConditions_line (n : Nat) (u : State) : (clearConditions n u).1.line = u.line := by
  unfold clearConditions
  split_ifs <;> rfl

theorem setTimeTo_line (d : Date) (u : State) : (setTimeTo d u).1.line = u.line := by
  unfold setTimeTo
  split_ifs <;> rfl

theorem setDialTo_line (line position : Nat) (u : State) : (setDialTo line position u).1.line = u.line := by
  unfold setDialTo
  split
  · unfold setDialAt
    split
    · rfl
    · split_ifs <;> simp [refuse, done]
  · rfl

theorem execPortCommand_legal (c : PortCommand) (p : SelectPeriod) {s t : State} (h : QueueAndStandingLegal s.line)
    (hexec : execPortCommand c p s = .next t) : QueueAndStandingLegal t.line := by
  cases c <;> obtain rfl := Host.Outcome.next.inj hexec
  case configure => exact selectCommand_legal (fun _ => configureItem_legal p.params) h
  case start => exact selectCommand_legal (fun _ => startStation_legal) h
  case restart => exact selectCommand_legal (fun _ _ => .of_powerOn ⟨rfl, rfl, rfl, rfl⟩) h
  case readStatus => exact selectCommand_legal_of_line (fun _ => rfl) h
  case takeEvents => exact selectCommand_legal_of_line (takeOldest_line _) h
  case peekEvent => exact selectCommand_legal_of_line (peekAt_line _) h
  case takeDeviation => exact selectCommand_legal_of_line takeHead_line h
  case loadEntry => exact selectCommand_legal_of_line (withSlot_line (fun slot => loadSlot_line slot _) _) h
  case cancelEntry => exact selectCommand_legal_of_line (withSlot_line cancelAt_line _) h
  case readEntry => exact selectCommand_legal_of_line (withSlot_line (fun _ _ => rfl) _) h
  case readHeard => exact selectCommand_legal_of_line (readOrigin_line _) h
  case clearUrgent => exact selectCommand_legal_of_line (clearConditions_line _) h
  case setTime => exact selectCommand_legal_of_line (setTimeTo_line _) h
  case setDial => exact selectCommand_legal_of_line (setDialTo_line _ _) h

theorem answerOnlySelectPeriod_line (octets : Nat) (early : Bool) (s : State) :
    (if periodDiscarded early s then discardPeriod octets s else clockOutAnswer octets s).line = s.line := by
  split_ifs <;> simp

theorem execUnknownCommand_legal (octets : List Octet) (early : Bool) {s t : State}
    (h : QueueAndStandingLegal s.line) (hexec : execUnknownCommand octets early s = .next t) :
    QueueAndStandingLegal t.line := by
  unfold execUnknownCommand at hexec
  split at hexec
  · exact execPortCommand_legal _ _ h hexec
  · split_ifs at hexec
    · obtain rfl := Host.Outcome.next.inj hexec
      exact (answerOnlySelectPeriod_line 0 early s).symm ▸ h
    · obtain rfl := Host.Outcome.next.inj hexec
      exact selectCommand_legal_of_line (fun _ => rfl) h

/-! ## Every command -/

/-- A command whose point has not come changes nothing (assumption log 1). -/
theorem QueueAndStandingLegal.of_due {due : Prop} [Decidable due] {s t : State} (h : QueueAndStandingLegal s.line)
    (ht : due → QueueAndStandingLegal t.line) : QueueAndStandingLegal (if due then t else s).line := by
  split_ifs with hd
  · exact ht hd
  · exact h

theorem exec_queueAndStandingLegal {c : Instr} {s t : State} (h : QueueAndStandingLegal s.line)
    (hexec : exec c s = .next t) : QueueAndStandingLegal t.line := by
  cases c with
  | unknownCommand octets early => exact execUnknownCommand_legal octets early h hexec
  | configure p => exact execPortCommand_legal .configure p h hexec
  | start p => exact execPortCommand_legal .start p h hexec
  | restart p => exact execPortCommand_legal .restart p h hexec
  | readStatus p => exact execPortCommand_legal .readStatus p h hexec
  | takeEvents p => exact execPortCommand_legal .takeEvents p h hexec
  | peekEvent p => exact execPortCommand_legal .peekEvent p h hexec
  | takeDeviation p => exact execPortCommand_legal .takeDeviation p h hexec
  | loadEntry p => exact execPortCommand_legal .loadEntry p h hexec
  | cancelEntry p => exact execPortCommand_legal .cancelEntry p h hexec
  | readEntry p => exact execPortCommand_legal .readEntry p h hexec
  | readHeard p => exact execPortCommand_legal .readHeard p h hexec
  | clearUrgent p => exact execPortCommand_legal .clearUrgent p h hexec
  | setTime p => exact execPortCommand_legal .setTime p h hexec
  | setDial p => exact execPortCommand_legal .setDial p h hexec
  | presenceDue =>
    exact Host.Outcome.next.inj hexec ▸ h.of_due fun _ => queuePresence_legal _ (h.congr ⟨rfl, rfl, rfl, rfl, rfl⟩)
  | frameOutcome how =>
    obtain rfl := Host.Outcome.next.inj hexec
    split
    · exact endOwnFrame_legal how _ h
    · exact h
  | receiveTimeFrame f => exact Host.Outcome.next.inj hexec ▸ frameEnds_legal h (endTimeFrame_legal f h)
  | receiveNotice f => exact Host.Outcome.next.inj hexec ▸ frameEnds_legal h (endNotice_legal f h)
  | receivePresence f => exact Host.Outcome.next.inj hexec ▸ frameEnds_legal h (endPresence_legal f h)
  | receiveBadFrame why => exact Host.Outcome.next.inj hexec ▸ h.of_due fun _ => endBadFrame_legal why h
  | settleExpiry terminal =>
    obtain rfl := Host.Outcome.next.inj hexec
    split
    · exact h.of_due fun _ => settle_legal terminal _ h
    · exact h
  | powerOn => exact Host.Outcome.next.inj hexec ▸ .of_powerOn ⟨rfl, rfl, rfl, rfl⟩
  | qualificationEnd => exact Host.Outcome.next.inj hexec ▸ h.of_due fun _ => h.congr (by simp)
  | secondMark => exact Host.Outcome.next.inj hexec ▸ h.congr (by simp)
  | correctionSecondEnd => exact Host.Outcome.next.inj hexec ▸ h.of_due fun _ => h
  | holdoverEntry => exact Host.Outcome.next.inj hexec ▸ h.of_due fun _ => h.congr (by simp)
  | beginReadyFrame =>
    obtain rfl := Host.Outcome.next.inj hexec
    split
    · exact h.of_due fun _ => h.congr ⟨rfl, rfl, rfl, rfl, rfl⟩
    · exact h
  | silenceExpiry peer =>
    exact Host.Outcome.next.inj hexec ▸ h.of_due fun _ => h.congr ⟨rfl, rfl, rfl, rfl, rfl⟩
  | silenceTimerExpiry => exact Host.Outcome.next.inj hexec ▸ h.of_due fun _ => h.congr (by simp)
  | holdoverAging => exact Host.Outcome.next.inj hexec ▸ h.of_due fun _ => h
  | referencePulse =>
    obtain rfl := Host.Outcome.next.inj hexec
    split
    · split_ifs
      · exact h.congr (by simp)
      · simpa using h
    · exact h
  | referenceLoss => exact Host.Outcome.next.inj hexec ▸ h.of_due fun _ => h.congr (by simp)
  | edge terminal level => exact Host.Outcome.next.inj hexec ▸ h.congr (by simp)
  | limitExpiry pair => exact Host.Outcome.next.inj hexec ▸ h.of_due fun _ => h.congr (by simp)
  | openFire => exact Host.Outcome.next.inj hexec ▸ h.of_due fun _ => h.congr (by simp)
  | missFire => exact Host.Outcome.next.inj hexec ▸ h.of_due fun _ => h.congr (by simp)
  | supplyChange supply =>
    obtain rfl := Host.Outcome.next.inj hexec
    split_ifs <;> simpa using h
  | stepBoundary line => exact Host.Outcome.next.inj hexec ▸ h.congr (by simp)
  | pulseStart line => exact Host.Outcome.next.inj hexec ▸ h.congr (by simp)
  | pulseEnd line =>
    obtain rfl := Host.Outcome.next.inj hexec
    split
    · simpa using h
    · exact h
  | dominantLeadIn mark =>
    obtain rfl := Host.Outcome.next.inj hexec
    split_ifs
    · exact h
    · split
      · exact h.congr ⟨rfl, rfl, rfl, rfl, rfl⟩
      · exact h.congr ⟨rfl, rfl, rfl, rfl, rfl⟩
      · exact h
      · exact h
  | lineIdle =>
    obtain rfl := Host.Outcome.next.inj hexec
    split_ifs
    · exact h
    · split
      · exact h.congr ⟨rfl, rfl, rfl, rfl, rfl⟩
      · exact h.congr ⟨rfl, rfl, rfl, rfl, rfl⟩
      · exact h
      · exact h
  | answerOnlySelectPeriod octets early =>
    exact Host.Outcome.next.inj hexec ▸ (answerOnlySelectPeriod_line octets early s).symm ▸ h

/-- The idle station queues a command or lets time pass; its line controller stays. -/
theorem idleStep_line (s : State) : (idleStep s).line = s.line := by
  unfold idleStep
  split <;> simp

/-- Settles O56: every command keeps queue and standing legal, and the idle station leaves them. -/
theorem stepKeepsQueueAndStanding : Obligations.StepKeepsQueueAndStanding := by
  intro s t hqueue hstanding hstep
  have h : QueueAndStandingLegal s.line := ⟨hqueue, hstanding⟩
  have ht : QueueAndStandingLegal t.line := by
    unfold step at hstep
    split at hstep
    · next rest _ => exact exec_queueAndStandingLegal (s := { s with pending := rest }) h hstep
    · obtain rfl := Host.Outcome.next.inj hstep
      exact (idleStep_line s).symm ▸ h
  exact ⟨ht.queue, ht.standing⟩

end Sys2Proof.Machine

/-! # The line's condition, the ready frame and PRESENCE (chapters 2 and 7) -/

namespace Sys2Proof.Machine

/-! ## Lead-ins and the idle line (R24, R26) -/

/-- Settles O34: the four conditions of the line under each of the two commands. -/
theorem lineFollowsLeadInsAndIdle : Obligations.LineFollowsLeadInsAndIdle := by
  intro s mark hs
  refine ⟨fun hc => ?idle, fun hc => ?gap, fun hc => ?inFrame, fun hc hown => ?recessive, fun hc => ?kept⟩
  case idle => simp [exec, execDominantLeadIn, hs, hc, frameBegins, captureAt, inRun]
  case gap => simp [exec, execDominantLeadIn, hs, hc, frameBegins]
  case inFrame => rcases hc with hc | hc <;> simp [exec, execDominantLeadIn, hs, hc]
  case recessive => rcases hc with hc | hc <;> simp [exec, execLineIdle, hs, hc, hown, lineFallsIdle]
  case kept =>
    rcases hc with hc | hc | hown
    · simp [exec, execLineIdle, hc]
    · simp [exec, execLineIdle, hc]
    · simp [exec, execLineIdle, Option.isSome_iff_ne_none.mpr hown]

/-! ## The ready frame (R30) -/

theorem readyToBegin_iff {s : State} (hs : s.port.station = .run) :
    readyToBegin s = true ↔ s.line.condition = .idle ∧ s.line.ownFrame = none ∧ s.time.date.us % 1000000 < 999500 ∧
      s.time.markDue = none ∧ s.line.standing ≠ .withdrawn := by
  simp [readyToBegin, inRun, hs, inGuardInterval, maySend, and_assoc]

/-- The frame begun is the head's, and only where the conditions of R30 hold. -/
theorem exec_beginReadyFrame {s : State} {it : TxItem} {rest : List TxItem} (h : s.line.txQueue = it :: rest) :
    exec .beginReadyFrame s = .next (if readyToBegin s then beginItem it s else s) := by
  simp [exec, execBeginReadyFrame, h]

/-- Settles O28: the conditions of R30, and what fails when one of them does. -/
theorem readyFrameBeginsOnAnIdleLine : Obligations.ReadyFrameBeginsOnAnIdleLine := by
  intro s hs
  refine ⟨fun it rest hqueue hidle hown hguard hmark hstanding => ?_, fun h => ?_⟩
  · rw [exec_beginReadyFrame hqueue, if_pos ((readyToBegin_iff hs).mpr ⟨hidle, hown, hguard, hmark, hstanding⟩)]
    rfl
  · cases hqueue : s.line.txQueue with
    | nil => simp [exec, execBeginReadyFrame, hqueue]
    | cons it rest =>
      have hnot : ¬ readyToBegin s = true := by
        rw [readyToBegin_iff hs]
        rintro ⟨hidle, -, hguard, -, hstanding⟩
        rcases h with h | h | h | h
        · simp [hqueue] at h
        · exact h hidle
        · omega
        · exact hstanding h
      rw [exec_beginReadyFrame hqueue, if_neg hnot]

/-! ## PRESENCE (R41, R114, R115) -/

theorem presenceIsDue_iff {s : State} (hs : s.port.station = .run) :
    presenceIsDue s = true ↔ ∃ due, s.line.presenceDue = some due ∧ reached s.time.elapsed due = true := by
  unfold presenceIsDue
  cases s.line.presenceDue <;> simp [inRun, hs]

theorem queuePresence_of_withdrawn (b : PresenceBody) {l : LineController} (h : l.standing = .withdrawn) :
    queuePresence b l = l := by
  simp [queuePresence, h]

theorem queuePresence_of_held (b : PresenceBody) {l : LineController} (h : l.standing ≠ .withdrawn)
    (hheld : l.txQueue.any isPresenceItem = true) :
    queuePresence b l = { l with txQueue := l.txQueue.map (refreshPresence b l) } := by
  unfold queuePresence
  rw [if_neg h, if_pos hheld]

theorem queuePresence_of_room (b : PresenceBody) {l : LineController} (h : l.standing ≠ .withdrawn)
    (hheld : l.txQueue.any isPresenceItem = false) (hroom : l.txQueue.length < 16) :
    queuePresence b l = joinQueue
      { rank := 0, body := .presence b, attempts := 0, eventSeq := none, order := 0, refreshed := false } l := by
  unfold queuePresence
  rw [if_neg h, if_neg (by simp [hheld]), if_pos hroom]

theorem queuePresence_of_full (b : PresenceBody) {l : LineController}
    (hheld : l.txQueue.any isPresenceItem = false) (hfull : 16 ≤ l.txQueue.length) : queuePresence b l = l := by
  unfold queuePresence
  split_ifs with hw hany hroom
  · rfl
  · simp [hheld] at hany
  · omega
  · rfl

theorem fallPresence_line (s : State) :
    (fallPresence s).line = queuePresence (presenceBody s) { s.line with presenceDue := none } := rfl

/-- PRESENCE at the transmit queue changes queue and next entry order alone. -/
theorem queuePresence_rest (b : PresenceBody) (l : LineController) :
    queuePresence b l =
      { l with txQueue := (queuePresence b l).txQueue, nextOrder := (queuePresence b l).nextOrder } := by
  unfold queuePresence
  split_ifs <;> rfl

/-- Settles O27: the four cases of R41 at the due point, and the command before it. -/
theorem presenceFallsDueIntoTheQueue : Obligations.PresenceFallsDueIntoTheQueue := by
  intro s hs
  refine ⟨fun due hpoint hreached => ?_, fun h => ?_⟩
  · have hdue : presenceIsDue s = true := (presenceIsDue_iff hs).mpr ⟨due, hpoint, hreached⟩
    dsimp only
    refine ⟨fallPresence s, by simp [exec, execPresenceDue, hdue], ?point, fun hw => ?withdrawn,
      fun hw hheld => ?held, fun hw hheld hroom => ?joined, fun hheld hfull => ?full, ?rest⟩
    case point => exact congrArg LineController.presenceDue (queuePresence_rest _ _)
    case withdrawn =>
      rw [fallPresence_line, queuePresence_of_withdrawn]
      exact hw
    case held =>
      have hqueue : (fallPresence s).line.txQueue =
          s.line.txQueue.map (refreshPresence (presenceBody s) { s.line with presenceDue := none }) := by
        rw [fallPresence_line, queuePresence_of_held]
        exacts [hw, hheld]
      refine ⟨by simp [hqueue], fun n it hit => ?_⟩
      rw [hqueue, List.getElem?_map, hit]
      rfl
    case joined =>
      rw [fallPresence_line, queuePresence_of_room]
      exacts [insertItem_perm _ _, hw, hheld, hroom]
    case full =>
      rw [fallPresence_line, queuePresence_of_full]
      exacts [hheld, hfull]
    case rest => exact congrArg (fun l => { s with line := l }) (queuePresence_rest _ _)
  · have hnot : ¬ presenceIsDue s = true := by
      rw [presenceIsDue_iff hs]
      rintro ⟨due, hpoint, hreached⟩
      rcases h with h | ⟨due', hpoint', hreached'⟩
      · simp [h] at hpoint
      · simp_all
    simp [exec, execPresenceDue, hnot]

end Sys2Proof.Machine

/-! # HOLDOVER: entry at an own mark, and aging -/

namespace Sys2Proof.Machine

/-- The close of a fourth empty second enters HOLDOVER from the grade in force (R49, R60). -/
theorem closeSecond_of_four {s : State} (h : 4 ≤ closedCount s.agreement) :
    closeSecond s = raiseUrgent .timeDegraded { date := s.time.date, epoch := s.time.epoch } { s with
      agreement := { s.agreement with
        timeState := .holdover
        grade := min 13 (s.agreement.grade + 1)
        withoutSource := 0
        acceptedThisSecond := false
        holdover := some { grade := s.agreement.grade, elapsed := s.time.elapsed } } } := by
  unfold closeSecond
  dsimp only
  rw [if_pos h]
  rfl

theorem closedCount_of_empty {a : Agreement} (hts : a.timeState = .agreed) (hempty : a.acceptedThisSecond = false) :
    closedCount a = a.withoutSource + 1 := by
  simp [closedCount, hts, hempty]

theorem holdoverEntryDue_iff {s : State} (hs : s.port.station = .run) :
    holdoverEntryDue s = true ↔ s.time.markDue ≠ none ∧ s.agreement.timeState = .agreed ∧
      s.agreement.acceptedThisSecond = false ∧ 3 ≤ s.agreement.withoutSource := by
  unfold holdoverEntryDue closedCount
  split_ifs with h <;> simp [inRun, hs, Option.isSome_iff_ne_none, h]
  tauto

theorem agingDue_iff {s : State} {h : HoldoverEntry} (hs : s.port.station = .run)
    (hts : s.agreement.timeState = .holdover) (hentry : s.agreement.holdover = some h) :
    agingDue s = true ↔
      s.agreement.grade < min 13 (h.grade + 1 + elapsedSince s.time.elapsed h.elapsed / 16000000) := by
  simp [agingDue, inRun, hs, hts, agedGrade, hentry, holdoverGrade]

/-- Settles O20: the mark whose close enters HOLDOVER, then the grade of R47 at the present elapsed value. -/
theorem holdoverIsEnteredAndAges : Obligations.HoldoverIsEnteredAndAges := by
  intro s hs
  refine ⟨fun second hmark hts hempty hthird => ?_, fun h => ?_, fun h hts hentry => ?_⟩
  · have hfour : 4 ≤ closedCount s.agreement := by
      rw [closedCount_of_empty hts hempty]
      omega
    have hdue : holdoverEntryDue s = true := (holdoverEntryDue_iff hs).mpr ⟨by simp [hmark], hts, hempty, hthird⟩
    have hcontests := markInRun_contests (second := second) (s := clearMark s) hs
    rw [closeSecond_of_four (s := clearMark s) hfour] at hcontests
    refine ⟨takeMark s, by simp [exec, execHoldoverEntry, hdue], rfl, ?_⟩
    rw [takeMark_inRun hmark hs]
    exact hcontests
  · have hnot : ¬ holdoverEntryDue s = true := by
      rw [holdoverEntryDue_iff hs]
      rintro ⟨hmark, hts, hempty, hthird⟩
      rcases h with h | h | h | h
      · exact hmark h
      · exact h hts
      · simp [hempty] at h
      · omega
    simp [exec, execHoldoverEntry, hnot]
  · have hdue := agingDue_iff hs hts hentry
    have haged : agedGrade s = min 13 (h.grade + 1 + elapsedSince s.time.elapsed h.elapsed / 16000000) := by
      simp [agedGrade, hentry, holdoverGrade]
    dsimp only
    refine ⟨fun hlt => ?_, fun hle => ?_⟩
    · rw [← haged]
      simp [exec, execHoldoverAging, hdue.mpr hlt]
    · have hnot : ¬ agingDue s = true := fun hd => absurd (hdue.mp hd) (Nat.not_lt.mpr hle)
      simp [exec, execHoldoverAging, hnot]

end Sys2Proof.Machine

/-! # Bad frames (R24, R25, R33, R35, R38) -/

namespace Sys2Proof.Machine

theorem receiving_iff (s : State) :
    receiving s = true ↔
      s.port.station ≠ .notQualified ∧ s.line.condition ≠ .awaitRecessive ∧ s.line.ownFrame = none := by
  simp [receiving, and_assoc]

theorem exec_receiveBadFrame (why : BadFrame) (s : State) :
    exec (.receiveBadFrame why) s = .next (if receiving s then endBadFrame why s else s) := rfl

/-- A bad frame in RUN: the line waits for recessive bits, a FULL receiver has objected, and the frame is scored. -/
theorem endBadFrame_inRun (why : BadFrame) {s : State} (hs : s.port.station = .run) :
    endBadFrame why s = scoreBadFrame s.line.remainder.isSome { s with line := { s.line with
      condition := .awaitRecessive, leadIn := none, remainder := none
      objecting := decide (why = .checkDisagrees ∧ s.line.remainder.getD s.line.standing = .full) } } := by
  have hobjects : (inRun s && decide (why = .checkDisagrees) && standingOnFrame s.line == .full) =
      decide (why = .checkDisagrees ∧ s.line.remainder.getD s.line.standing = .full) := by
    simp only [inRun, hs, standingOnFrame, Bool.decide_and, beq_self_eq_true, Bool.true_and]
    rfl
  unfold endBadFrame
  dsimp only
  rw [hobjects, if_pos (by simp [inRun, hs])]
  rfl

theorem endBadFrame_inConfig (why : BadFrame) {s : State} (hs : s.port.station = .config) :
    endBadFrame why s = { s with line := { s.line with
      condition := .awaitRecessive, leadIn := none, remainder := none, objecting := false } } := by
  simp [endBadFrame, inRun, hs, badFrameEnds]

/-- A whole frame whose check disagrees is bad, its kind fitting its start mark (R33). -/
theorem frameEnds_of_wrongCheck {m : StartMark} {isTime : Bool} {good : State → State} {s : State}
    (h : FrameCanEnd m s) (hm : isTime = (m == .time)) :
    frameEnds isTime false good s = if receiving s then endBadFrame .checkDisagrees s else s := by
  simp [frameEnds, kindFits_of_canEnd h hm]

/-- A whole frame whose kind does not fit its start mark is malformed (R25). -/
theorem frameEnds_of_wrongKind {isTime checkAgrees : Bool} {good : State → State} {s : State} {li : LeadIn}
    {m : StartMark} (hli : s.line.leadIn = some li) (hmark : li.mark = some m) (hm : isTime = !(m == .time)) :
    frameEnds isTime checkAgrees good s = if receiving s then endBadFrame .malformed s else s := by
  have hkind : kindFits isTime s.line = false := by
    subst hm
    cases m <;> simp [kindFits, hli, hmark]
  simp [frameEnds, hkind]

/-- Settles O32: the score of R35 by standing and remainder, and the RECEIVE commands that stand for a bad frame. -/
theorem badFrameIsScoredAndMayWithdraw : Obligations.BadFrameIsScoredAndMayWithdraw := by
  refine ⟨fun s why hc hown => ⟨fun hs => ?inRun, fun hs => ?inConfig⟩,
    fun s f => ⟨fun h hbad => ?_, fun li hli hm => ?_⟩, fun s f => ⟨fun h hbad => ?_, fun li hli hm => ?_⟩, fun s f => ⟨fun h hbad => ?_, fun li hli hm => ?_⟩⟩
  case inRun =>
    have hreceiving : receiving s = true := (receiving_iff s).mpr ⟨by simp [hs], hc, hown⟩
    rw [exec_receiveBadFrame, if_pos hreceiving, endBadFrame_inRun why hs, scoreBadFrame_eq]
    dsimp only
    refine ⟨fun hstanding hremainder => ⟨fun hlow => ?_, fun hlast => ?_⟩, fun hstanding hremainder => ?_,
      fun hstanding => ?_⟩
    · have hscore : scoreUp 1 s.line.score = s.line.score + 1 := by simp only [scoreUp, saturatingAdd]; omega
      rw [if_neg hstanding, hremainder, if_neg (by simp), hscore, if_neg (by omega)]
    · have hscore : scoreUp 1 s.line.score = 192 := by simp only [scoreUp, saturatingAdd]; omega
      rw [if_neg hstanding, hremainder, if_neg (by simp), hscore, if_pos (le_refl _)]
    · rw [if_neg hstanding, if_pos (Option.isSome_iff_ne_none.mpr hremainder)]
    · rw [if_pos hstanding]
  case inConfig =>
    have hreceiving : receiving s = true := (receiving_iff s).mpr ⟨by simp [hs], hc, hown⟩
    rw [exec_receiveBadFrame, if_pos hreceiving, endBadFrame_inConfig why hs]
  · exact congrArg _ (hbad ▸ frameEnds_of_wrongCheck h rfl)
  · exact congrArg _ (frameEnds_of_wrongKind hli hm rfl)
  · exact congrArg _ (hbad ▸ frameEnds_of_wrongCheck h rfl)
  · exact congrArg _ (frameEnds_of_wrongKind hli hm rfl)
  · exact congrArg _ (hbad ▸ frameEnds_of_wrongCheck h rfl)
  · exact congrArg _ (frameEnds_of_wrongKind hli hm rfl)

end Sys2Proof.Machine

/-! # Frames received: TIME frames declined, PRESENCE and notices (sections 2.5, 3.3, 7.3 to 7.6) -/

namespace Sys2Proof.Machine

/-! ## Frames of no peer (R34, R116, R195) -/

theorem peerOf_own {origin : BitVec 6} {s : State} (h : origin = ownOrigin s) : peerOf origin s = none := by
  unfold peerOf
  split_ifs
  · rfl
  · rfl

theorem peerOf_outside {origin : BitVec 6} {s : State} (h : origin.toNat = 0 ∨ origin.toNat = 63) :
    peerOf origin s = none := by
  unfold peerOf
  split_ifs
  · omega
  · omega
  · rfl

theorem peerOf_endGoodFrame (origin o : BitVec 6) (s : State) : peerOf o (endGoodFrame origin s) = peerOf o s :=
  peerOf_congr (by simp)

theorem inRun_endGoodFrame (origin : BitVec 6) {s : State} (hs : s.port.station = .run) :
    inRun (endGoodFrame origin s) = true := by
  simp [inRun, hs]

theorem endGoodFrame_ends_peer {origin : BitVec 6} {s : State} {k : Fin 62} (hs : s.port.station = .run)
    (hk : peerOf origin s = some k) : GoodFrameEnds false s (endGoodFrame origin s) :=
  (peerOf_some hk).1 ▸ endGoodFrame_ends hs

theorem endGoodFrame_ends_decide {origin : BitVec 6} {s : State} (hs : s.port.station = .run) :
    GoodFrameEnds (decide (origin = ownOrigin s)) s (endGoodFrame origin s) := endGoodFrame_ends hs

/-! ## Declined TIME frames (R53, R55) -/

/-- A frame without a capture, or that is no source: the silence timer, and the measurement of R55. -/
theorem hearTimeFrame_of_declined {f : TimeFrame} {capture : Option Stamp} {s : State}
    (h : ∀ c, capture = some c → lineSource f c s = false) :
    hearTimeFrame f capture s =
      if measuresDisagreement f s = true ∧ ∃ c, capture = some c ∧ 1000 < (lineOffset f c s).natAbs then
        raiseUrgent .referenceDisagree { date := s.time.date, epoch := s.time.epoch }
          { s with agreement := restartSilence s.time.elapsed s.agreement }
      else { s with agreement := restartSilence s.time.elapsed s.agreement } := by
  cases capture with
  | none => simp [hearTimeFrame]
  | some c =>
    have hsource : lineSource f c { s with agreement := restartSilence s.time.elapsed s.agreement } = false := by
      simpa [lineSource, referenceRunning, ownOrigin] using h c rfl
    have hmeasures : measuresDisagreement f { s with agreement := restartSilence s.time.elapsed s.agreement } =
        measuresDisagreement f s := by
      simp [measuresDisagreement, ownOrigin]
    have hoffset : lineOffset f c { s with agreement := restartSilence s.time.elapsed s.agreement } =
        lineOffset f c s := rfl
    simp only [hearTimeFrame, hsource, hmeasures, hoffset, Option.some.injEq, exists_eq_left', Bool.false_eq_true,
      if_false]
    rfl

/-- A frame that bears the own origin is no source, and is not measured (assumption log 11). -/
theorem hearTimeFrame_of_own {f : TimeFrame} {capture : Option Stamp} {s : State} (h : f.origin = ownOrigin s) :
    hearTimeFrame f capture s = { s with agreement := restartSilence s.time.elapsed s.agreement } := by
  rw [hearTimeFrame_of_declined fun c _ => by simp [lineSource, h], if_neg]
  simp [measuresDisagreement, h]

theorem exec_receiveTimeFrame {f : TimeFrame} {s : State} (hs : s.port.station = .run) (hcan : FrameCanEnd .time s)
    (hgood : timeFrameGood f = true) : exec (.receiveTimeFrame f) s = .next (endTimeFrame f s) :=
  congrArg _ ((frameEnds_of_canEnd hs hcan rfl).trans (if_pos hgood))

/-- The state of a peer's frame at its judging, field by field. -/
theorem stateAtJudging_eq (f : TimeFrame) (k : Fin 62) (s : State) :
    stateAtJudging f k s = { endGoodFrame f.origin s with
      agreement := { s.agreement with
        silenceTimer := if s.agreement.timeState = .acquiring then some s.time.elapsed else s.agreement.silenceTimer }
      line := { (endGoodFrame f.origin s).line with heard := s.line.heard.set k { s.line.heard[k] with
        presence := .present
        lastGood := some s.time.elapsed
        silenceExpiry := some (s.time.elapsed + usSpan (s.port.image.silenceLimit * 1000000)) } } } := by
  simp [stateAtJudging, steerHeard, setHeard, hearFrame, restartSilence_eq]

/-- The declined frame of a peer (R53, R55). -/
theorem endTimeFrame_of_declined {f : TimeFrame} {s : State} {k : Fin 62} (hs : s.port.station = .run)
    (hk : peerOf f.origin s = some k)
    (h : ∀ c, s.line.leadIn.bind (·.capture) = some c → lineSource f c s = false) :
    endTimeFrame f s =
      if s.agreement.timeState = .referenced ∧ timeFrameUsable f = true ∧
          ∃ c, s.line.leadIn.bind (·.capture) = some c ∧ 1000 < (lineOffset f c s).natAbs then
        raiseUrgent .referenceDisagree { date := s.time.date, epoch := s.time.epoch } (stateAtJudging f k s)
      else stateAtJudging f k s := by
  have hne : f.origin ≠ ownOrigin s := by simpa using (peerOf_some hk).1
  have hjudged : stateAtJudging f k s = { steerHeard k (endGoodFrame f.origin s) with
      agreement := restartSilence (steerHeard k (endGoodFrame f.origin s)).time.elapsed
        (steerHeard k (endGoodFrame f.origin s)).agreement } := by
    simp [stateAtJudging]
  have htime : (steerHeard k (endGoodFrame f.origin s)).time = s.time := by simp
  have hsource (c : Stamp) (hc : s.line.leadIn.bind (·.capture) = some c) :
      lineSource f c (steerHeard k (endGoodFrame f.origin s)) = false :=
    (lineSource_congr (by simp) (by simp) (by simp)).trans (h c hc)
  have hmeasures : measuresDisagreement f (steerHeard k (endGoodFrame f.origin s)) = true ↔
      s.agreement.timeState = .referenced ∧ timeFrameUsable f = true := by
    simp [measuresDisagreement, ownOrigin, show f.origin ≠ BitVec.ofNat 6 s.port.image.station from hne]
  have hoffset (c : Stamp) : lineOffset f c (steerHeard k (endGoodFrame f.origin s)) = lineOffset f c s := by
    simp [lineOffset]
  rw [endTimeFrame_of_peer hs hk, hearTimeFrame_of_declined hsource, ← hjudged, htime]
  simp only [hmeasures, hoffset, and_assoc]

/-- Settles O25: peers' frames that are no source, own frames, and frames of no origin. -/
theorem declinedTimeFrameLeavesTheTimeAlone : Obligations.DeclinedTimeFrameLeavesTheTimeAlone := by
  intro s f hs hcan hgood
  dsimp only
  rw [exec_receiveTimeFrame hs hcan hgood]
  refine ⟨fun k hk hdeclined => ?peer, fun hown hlow hhigh => ?own, fun hne hrange => ?outside⟩
  case peer =>
    have hend := endTimeFrame_of_declined hs hk hdeclined
    refine ⟨_, _, _, endGoodFrame_ends_peer hs hk, rfl, rfl, fun hd => ?_, fun hd => ?_, ?_⟩
    · rw [hend, if_pos hd, stateAtJudging_eq]
    · rw [hend, if_neg hd, stateAtJudging_eq]
    · rw [hend]
      split_ifs <;> simp [stateAtJudging_eq]
  case own =>
    have hhanded : handedOn f.origin = true := by simp [handedOn, hlow, hhigh]
    have hown' : f.origin = ownOrigin (endGoodFrame f.origin s) := hown.trans (by simp [ownOrigin])
    refine ⟨endGoodFrame f.origin s, by simpa [hown] using endGoodFrame_ends_decide hs (origin := f.origin), ?_⟩
    rw [← restartSilence_eq]
    simp [endTimeFrame, inRun_endGoodFrame _ hs, hhanded, peerOf_endGoodFrame, peerOf_own hown,
      hearTimeFrame_of_own hown']
  case outside =>
    have hhanded : handedOn f.origin = false := by
      rcases hrange with h | h <;> simp [handedOn, h]
    refine ⟨endGoodFrame f.origin s, by simpa [hne] using endGoodFrame_ends_decide hs (origin := f.origin), ?_⟩
    simp [endTimeFrame, hhanded]

/-! ## PRESENCE (R117, R121, R122) -/

theorem exec_receivePresence {f : PresenceFrame} {s : State} (hs : s.port.station = .run)
    (hcan : FrameCanEnd .short s) (hgood : presenceFrameGood f = true) :
    exec (.receivePresence f) s = .next (endPresence f s) :=
  congrArg _ ((frameEnds_of_canEnd hs hcan rfl).trans (if_pos hgood))

theorem endPresence_of_peer {f : PresenceFrame} {s : State} {k : Fin 62} (hs : s.port.station = .run)
    (hk : peerOf f.origin s = some k) :
    endPresence f s = setHeard k
      (hearPresence f.body (hearFrame s.time.elapsed s.port.image.silenceLimit s.line.heard[k]))
      (endGoodFrame f.origin s) := by
  simp [endPresence, peerOf_endGoodFrame, hk, inRun_endGoodFrame _ hs, steerPresence, steerHeard, setHeard]

theorem endPresence_of_stranger {f : PresenceFrame} {s : State} (hk : peerOf f.origin s = none) :
    endPresence f s = endGoodFrame f.origin s := by
  simp [endPresence, peerOf_endGoodFrame, hk]

/-- The first PRESENCE of an origin gives its last notice sequence (R121). -/
theorem hearPresence_of_first (b : PresenceBody) {e : HeardEntry} (h : e.lastSeq = none) :
    hearPresence b e = { e with
      lastPresence := some { timeState := timeStateOfCode b.timeState, grade := b.grade, epoch := b.epoch,
                             standing := b.standing }
      lastSeq := some b.lastSeq } := by
  simp [hearPresence, h]

/-- A PRESENCE that announces notices not heard (R121). -/
theorem hearPresence_of_missed (b : PresenceBody) {e : HeardEntry} {l : NoticeSeq} (h : e.lastSeq = some l)
    (hlow : 1 ≤ (b.lastSeq - l).toNat) (hhigh : (b.lastSeq - l).toNat ≤ 127) :
    hearPresence b e = { e with
      lastPresence := some { timeState := timeStateOfCode b.timeState, grade := b.grade, epoch := b.epoch,
                             standing := b.standing }
      missed := min 65535 (e.missed + (b.lastSeq - l).toNat)
      lastSeq := some b.lastSeq } := by
  unfold hearPresence
  simp only [h, hlow, hhigh, and_self, if_true]
  rfl

/-- A PRESENCE that announces none, or a sequence behind (R121). -/
theorem hearPresence_of_none_missed (b : PresenceBody) {e : HeardEntry} {l : NoticeSeq} (h : e.lastSeq = some l)
    (hk : (b.lastSeq - l).toNat = 0 ∨ 128 ≤ (b.lastSeq - l).toNat) :
    hearPresence b e = { e with
      lastPresence := some { timeState := timeStateOfCode b.timeState, grade := b.grade, epoch := b.epoch,
                             standing := b.standing } } := by
  have hnot : ¬ (1 ≤ (b.lastSeq - l).toNat ∧ (b.lastSeq - l).toNat ≤ 127) := by omega
  unfold hearPresence
  simp only [h, hnot, if_false]

/-- Settles O31: the entry by the cases of R121, on the state in which the frame is scored. -/
theorem receivedPresenceUpdatesItsHeardEntry : Obligations.ReceivedPresenceUpdatesItsHeardEntry := by
  intro s f hs hcan hgood
  rw [exec_receivePresence hs hcan hgood]
  refine ⟨fun k hk => ?peer, fun h => ?stranger⟩
  case peer =>
    refine ⟨endGoodFrame f.origin s, endPresence f s, endGoodFrame_ends_peer hs hk, rfl, fun h => ?_,
      fun l h hlow hhigh => ?_, fun l h hnone => ?_, ?_, ?_⟩ <;> rw [endPresence_of_peer hs hk]
    · rw [hearPresence_of_first f.body (e := hearFrame _ _ _) h]
      simp [setHeard, hearFrame]
    · rw [hearPresence_of_missed f.body (e := hearFrame _ _ _) h hlow hhigh]
      simp [setHeard, hearFrame]
    · rw [hearPresence_of_none_missed f.body (e := hearFrame _ _ _) h hnone]
      simp [setHeard, hearFrame]
    · simp [setHeard]
    · rfl
  case stranger =>
    have hk : peerOf f.origin s = none := by
      rcases h with h | h
      · exact peerOf_own h
      · exact peerOf_outside h
    exact ⟨_, rfl, endPresence_of_stranger hk ▸ endGoodFrame_ends_decide hs⟩

end Sys2Proof.Machine

/-! # Notices received (R117, R120, R125 to R128, R195) -/

namespace Sys2Proof.Machine

theorem exec_receiveNotice {f : NoticeFrame} {s : State} (hs : s.port.station = .run) (hcan : FrameCanEnd .short s)
    (hgood : noticeFrameGood f = true) : exec (.receiveNotice f) s = .next (endNotice f s) :=
  congrArg _ ((frameEnds_of_canEnd hs hcan rfl).trans (if_pos hgood))

theorem endNotice_of_peer {f : NoticeFrame} {s : State} {k : Fin 62} (hs : s.port.station = .run)
    (hk : peerOf f.origin s = some k) : endNotice f s = steerNotice k f (endGoodFrame f.origin s) := by
  simp [endNotice, peerOf_endGoodFrame, hk, inRun_endGoodFrame _ hs]

theorem endNotice_of_stranger {f : NoticeFrame} {s : State} (hk : peerOf f.origin s = none) :
    endNotice f s = endGoodFrame f.origin s := by
  simp [endNotice, peerOf_endGoodFrame, hk]

/-! ## The entry that decides -/

/-- The acceptance entry that decides a notice; a µs of day beyond the day leaves it to none (R125, R126, R195). -/
def noticeDecider (f : NoticeFrame) (l : Vector (Option AcceptEntry) 16) : Option (Fin 16) :=
  if usInDay f.body.us then decidingEntry f.origin f.body.channel l else none

/-- The hit counts after a notice that this entry decides (R127). -/
def hitsAfter (decider : Option (Fin 16)) (hits : Vector Nat 16) : Vector Nat 16 :=
  match decider with
  | some i => hits.set i (saturatingAdd 65535 hits[i] 1)
  | none => hits

theorem hitsAfter_decider {decider : Option (Fin 16)} {i : Fin 16} (h : decider = some i) (hits : Vector Nat 16) :
    (hitsAfter decider hits)[i] = min 65535 (hits[i] + 1) := by
  subst h
  simp [hitsAfter, saturatingAdd]

theorem hitsAfter_other {decider : Option (Fin 16)} {i : Fin 16} (h : decider ≠ some i) (hits : Vector Nat 16) :
    (hitsAfter decider hits)[i] = hits[i] := by
  cases decider with
  | none => rfl
  | some j =>
    have hne : j.val ≠ i.val := fun he => h (congrArg some (Fin.ext he))
    simp [hitsAfter, Vector.getElem_set_ne, hne]

/-- The acceptance entry of that number is set and agrees with a notice at every place of its masks (R125). -/
def NoticeFits (f : NoticeFrame) (l : Vector (Option AcceptEntry) 16) (i : Fin 16) : Prop :=
  ∃ a, l[i] = some a ∧
    (∀ place < 6, a.originMask.getLsbD place = true → f.origin.getLsbD place = a.originValue.getLsbD place) ∧
    ∀ place < 6, a.channelMask.getLsbD place = true → f.body.channel.getLsbD place = a.channelValue.getLsbD place

theorem entryMatches_iff (f : NoticeFrame) (l : Vector (Option AcceptEntry) 16) (i : Fin 16) :
    entryMatches f.origin f.body.channel l i = true ↔ NoticeFits f l i := by
  unfold entryMatches NoticeFits
  cases l[i] <;> simp [acceptMatches_iff]

/-- The entry that decides a notice is the first that it fits (R126). -/
def NoticeDecides (f : NoticeFrame) (l : Vector (Option AcceptEntry) 16) (i : Fin 16) : Prop :=
  f.body.us.toNat < dayLength ∧ NoticeFits f l i ∧ ∀ j < i, ¬ NoticeFits f l j

theorem noticeDecider_eq_some_iff (f : NoticeFrame) (l : Vector (Option AcceptEntry) 16) (i : Fin 16) :
    noticeDecider f l = some i ↔ NoticeDecides f l i := by
  unfold noticeDecider NoticeDecides usInDay
  simp only [← entryMatches_iff, Bool.not_eq_true]
  split_ifs with hus
  · simp only [decidingEntry_eq_some_iff, of_decide_eq_true hus, true_and]
  · simp only [false_iff, not_and]
    exact fun h => absurd (decide_eq_true h) hus

/-- The deciding entry's action is OFFER (R126, R128). -/
theorem offers_iff (f : NoticeFrame) (l : Vector (Option AcceptEntry) 16) :
    (noticeDecider f l).any (entryOffers l) = true ↔
      ∃ i a, NoticeDecides f l i ∧ l[i] = some a ∧ a.offer = true := by
  simp only [← noticeDecider_eq_some_iff]
  cases noticeDecider f l with
  | none => simp
  | some i =>
    simp only [Option.any_some, Option.some.injEq, exists_and_left, exists_eq_left', entryOffers]
    cases l[i] <;> simp

/-! ## The heard entry -/

theorem isRepeat_iff (r : RecentNotice) (e : HeardEntry) :
    isRepeat r e = true ↔ e.lastSeq.isSome = true ∧ r ∈ e.recent := by
  simp [isRepeat]

/-- The entry after a new notice, `jump` being how many notices lie between it and the last one heard (R120). -/
theorem hearNotice_eq (r : RecentNotice) (e : HeardEntry) {jump : Nat}
    (h : ∀ l, e.lastSeq = some l → jump = (r.seq - l - 1).toNat) (hnone : e.lastSeq = none → jump = 0) :
    hearNotice r e = { e with
      missed := if jump < 128 then min 65535 (e.missed + jump) else min 65535 e.missed
      lastSeq := some r.seq
      recent := (r :: e.recent).take 8 } := by
  have hmissed : saturatingAdd 65535 e.missed (missedBefore r.seq e) =
      if jump < 128 then min 65535 (e.missed + jump) else min 65535 e.missed := by
    unfold missedBefore saturatingAdd
    cases hl : e.lastSeq with
    | none => simp [hnone hl]
    | some l =>
      rw [h l hl]
      dsimp only
      split_ifs <;> rfl
  rw [← hmissed]
  rfl

/-! ## A notice steered -/

theorem steerHeard_entry (k : Fin 62) (s : State) :
    (steerHeard k s).line.heard[k] = hearFrame s.time.elapsed s.port.image.silenceLimit s.line.heard[k] := by
  simp [steerHeard, setHeard]

theorem setHeard_steerHeard (k : Fin 62) (e : HeardEntry) (s : State) :
    setHeard k e (steerHeard k s) = setHeard k e s := by
  simp [steerHeard, setHeard]

theorem steerNotice_of_repeat {k : Fin 62} {f : NoticeFrame} {s : State}
    (h : isRepeat (recentOf f) (hearFrame s.time.elapsed s.port.image.silenceLimit s.line.heard[k]) = true) :
    steerNotice k f s = steerHeard k s := by
  unfold steerNotice
  dsimp only
  rw [steerHeard_entry, if_pos h]

/-- A notice at the acceptance list: the hit of the entry that decides, and what it offers (R126 to R128). -/
theorem acceptNotice_eq (f : NoticeFrame) (s : State) :
    acceptNotice f s =
      let decider := decidingEntry f.origin f.body.channel s.port.image.acceptance
      let counted : State := { s with line := { s.line with hits := hitsAfter decider s.line.hits } }
      if decider.any (entryOffers s.port.image.acceptance) then takeObservation (noticeObservation f) counted
      else counted := by
  unfold acceptNotice
  cases decidingEntry f.origin f.body.channel s.port.image.acceptance <;> rfl

/-- The state of a new notice once its entry and the hit counts are brought up to date (R117, R120, R127). -/
def noticeCounted (k : Fin 62) (f : NoticeFrame) (s : State) : State :=
  { s with line := { s.line with
      heard := s.line.heard.set k
        (hearNotice (recentOf f) (hearFrame s.time.elapsed s.port.image.silenceLimit s.line.heard[k]))
      hits := hitsAfter (noticeDecider f s.port.image.acceptance) s.line.hits } }

/-- A new notice: counted, and offered as an observation where the entry that decides says so (R126, R128). -/
theorem steerNotice_of_new {k : Fin 62} {f : NoticeFrame} {s : State}
    (h : ¬ isRepeat (recentOf f) (hearFrame s.time.elapsed s.port.image.silenceLimit s.line.heard[k]) = true) :
    steerNotice k f s =
      if (noticeDecider f s.port.image.acceptance).any (entryOffers s.port.image.acceptance) then
        takeObservation (noticeObservation f) (noticeCounted k f s)
      else noticeCounted k f s := by
  unfold steerNotice noticeCounted noticeDecider
  dsimp only
  rw [steerHeard_entry, if_neg h, setHeard_steerHeard]
  by_cases hus : usInDay f.body.us = true
  · rw [if_pos hus, if_pos hus, acceptNotice_eq]
    rfl
  · rw [if_neg hus, if_neg hus]
    rfl

/-- Two states that share these parts differ in line controller, event queue, checker and report unit alone. -/
theorem eq_of_frame_kept {s t : State} (h : t.pending = s.pending ∧ t.pins = s.pins ∧ t.time = s.time ∧
    t.agreement = s.agreement ∧ t.inputs = s.inputs ∧ t.pairs = s.pairs ∧ t.clocks = s.clocks ∧
    t.supply = s.supply ∧ t.port = s.port ∧ t.freeCount = s.freeCount) :
    t = { s with line := t.line, events := t.events, checker := t.checker, report := t.report } := by
  obtain ⟨⟩ := s
  obtain ⟨⟩ := t
  simp_all

theorem endNotice_condition {f : NoticeFrame} {s : State} {k : Fin 62} (hs : s.port.station = .run)
    (hk : peerOf f.origin s = some k) : (endNotice f s).line.condition = .gap := by
  rw [endNotice_of_peer hs hk, steerNotice_line]
  simp

/-- Settles O30: a repeat, a new notice by the entry that decides it, and a notice of no peer. -/
theorem receivedNoticeUpdatesItsHeardEntry : Obligations.ReceivedNoticeUpdatesItsHeardEntry := by
  intro s f hs hcan hgood
  rw [exec_receiveNotice hs hcan hgood]
  refine ⟨fun k hk => ?peer, fun h => ?stranger⟩
  case peer =>
    have hrepeat := isRepeat_iff (recentOf f)
      (hearFrame s.time.elapsed s.port.image.silenceLimit s.line.heard[k])
    refine ⟨endGoodFrame f.origin s, endNotice f s, endGoodFrame_ends_peer hs hk, rfl, fun hagain => ?again,
      fun hnew => ⟨noticeCounted k f (endGoodFrame f.origin s), ?counted, fun i hi => ?decided, fun i hi => ?other,
        fun hoffered => ?offered, fun hkept => ?kept⟩, endNotice_condition hs hk, eq_of_frame_kept (by simp)⟩
    case again =>
      rw [endNotice_of_peer hs hk, steerNotice_of_repeat (by simpa using hrepeat.mpr hagain)]
      simp [steerHeard, setHeard, hearFrame]
    case counted =>
      have hentry := hearNotice_eq (recentOf f)
        (hearFrame s.time.elapsed s.port.image.silenceLimit s.line.heard[k])
        (jump := match s.line.heard[k].lastSeq with
          | some l => (f.body.seq - l - 1).toNat
          | none => 0)
        (fun l hl => by rw [show s.line.heard[k].lastSeq = some l from hl]; rfl)
        (fun hl => by rw [show s.line.heard[k].lastSeq = none from hl])
      have hcounted : noticeCounted k f (endGoodFrame f.origin s) = { endGoodFrame f.origin s with
          line := { (endGoodFrame f.origin s).line with
            heard := s.line.heard.set k (hearNotice (recentOf f)
              (hearFrame s.time.elapsed s.port.image.silenceLimit s.line.heard[k]))
            hits := (noticeCounted k f (endGoodFrame f.origin s)).line.hits } } := by
        simp [noticeCounted]
      rw [hentry] at hcounted
      exact hcounted
    case decided =>
      simpa [noticeCounted] using hitsAfter_decider ((noticeDecider_eq_some_iff _ _ i).mpr hi) s.line.hits
    case other =>
      simpa [noticeCounted] using hitsAfter_other (mt (noticeDecider_eq_some_iff _ _ i).mp hi) s.line.hits
    case offered =>
      rw [endNotice_of_peer hs hk, steerNotice_of_new (by simpa using mt hrepeat.mp hnew),
        if_pos (by simpa using (offers_iff f s.port.image.acceptance).mpr hoffered)]
      rfl
    case kept =>
      rw [endNotice_of_peer hs hk, steerNotice_of_new (by simpa using mt hrepeat.mp hnew),
        if_neg (by simpa using mt (offers_iff f s.port.image.acceptance).mp hkept)]
  case stranger =>
    have hk : peerOf f.origin s = none := by
      rcases h with h | h
      · exact peerOf_own h
      · exact peerOf_outside h
    exact ⟨_, rfl, endNotice_of_stranger hk ▸ endGoodFrame_ends_decide hs⟩

end Sys2Proof.Machine

/-! # The outcome of an own frame (R31, R34 to R36, R38, R42, R43, R45) -/

namespace Sys2Proof.Machine

/-! ## The line and the owner -/

/-- The transmit queue once the owner of an own frame took its outcome (R31, R42). -/
def itemsSettled (how : FrameEnd) (owner : FrameOwner) (items : List TxItem) : List TxItem :=
  match owner with
  | .queueItem order => queueAfter how order items
  | .agreement | .noBlock => items

/-- What an outcome reports for the item of an own frame, if anything (R42, R43). -/
def reportSettled (how : FrameEnd) (owner : FrameOwner) (items : List TxItem) : Option (SeqNumber × Broadcast) :=
  match owner with
  | .queueItem order => (items.find? fun it => it.order == order).bind (outcomeReport how)
  | .agreement | .noBlock => none

/-- The event records after such a report. -/
def recordsReported (report : Option (SeqNumber × Broadcast)) (records : List EventRecord) : List EventRecord :=
  match report with
  | some r => writeBroadcast r.2 r.1 records
  | none => records

theorem ownerTakes_eq (how : FrameEnd) (owner : FrameOwner) (s : State) :
    ownerTakes how owner s = { s with
      line := { s.line with txQueue := itemsSettled how owner s.line.txQueue }
      events := { s.events with
        records := recordsReported (reportSettled how owner s.line.txQueue) s.events.records } } := by
  cases owner with
  | queueItem order =>
    simp only [ownerTakes, settleItem, itemsSettled, reportSettled]
    cases (s.line.txQueue.find? fun it => it.order == order).bind (outcomeReport how) <;> rfl
  | agreement => rfl
  | noBlock => rfl

/-- The own frame of an owner other than RESTART's, in RUN: settled, then scored (R31, R35). -/
theorem exec_frameOutcome {how : FrameEnd} {fr : Frame} {owner : FrameOwner} {s : State} (hs : s.port.station = .run)
    (hown : s.line.ownFrame = some { frame := fr, owner := owner }) (howner : owner ≠ .noBlock) :
    exec (.frameOutcome how) s =
      .next (scoreOwnFrame how (ownerTakes how owner { s with line := lineAfterOwn how true s.line })) := by
  have hcounts : (inRun s && owner != .noBlock) = true := by simp [inRun, hs, howner]
  simp [exec, execFrameOutcome, hown, endOwnFrame, hcounts]

/-- A frame that RESTART left on the line has no effect but on the line (R45). -/
theorem exec_frameOutcome_noBlock {how : FrameEnd} {fr : Frame} {s : State}
    (hown : s.line.ownFrame = some { frame := fr, owner := .noBlock }) :
    exec (.frameOutcome how) s = .next { s with line := lineAfterOwn how false s.line } := by
  simp [exec, execFrameOutcome, hown, endOwnFrame]

/-! ## The item -/

theorem settled_of_absent {how : FrameEnd} {order : Nat} {items : List TxItem} (h : ∀ e ∈ items, e.order ≠ order) :
    itemsSettled how (.queueItem order) items = items ∧ reportSettled how (.queueItem order) items = none := by
  refine ⟨queueAfter_of_absent h, ?_⟩
  have hnone : items.find? (fun it => it.order == order) = none := by simpa using h
  simp [reportSettled, hnone]

theorem settled_of_held {how : FrameEnd} {before after : List TxItem} {it : TxItem}
    (h : ∀ e ∈ before ++ after, e.order ≠ it.order) :
    itemsSettled how (.queueItem it.order) (before ++ it :: after) = before ++ (itemAfter how it).toList ++ after ∧
    reportSettled how (.queueItem it.order) (before ++ it :: after) = outcomeReport how it := by
  refine ⟨queueAfter_of_held h, ?_⟩
  have hnone : before.find? (fun e => e.order == it.order) = none := by
    simpa using fun e he => h e (List.mem_append_left after he)
  simp [reportSettled, List.find?_append, hnone]

/-- A notice after its frame (R42). -/
theorem itemAfter_notice {it : TxItem} {urgent : Bool} {b : NoticeBody} (hbody : it.body = .notice urgent b) :
    itemAfter .completed it = none ∧ itemAfter .objected it = itemAfter .collided it ∧
    (it.attempts < 2 → itemAfter .collided it = some { it with attempts := it.attempts + 1 }) ∧
    (2 ≤ it.attempts → itemAfter .collided it = none) := by
  refine ⟨?_, rfl, fun h => ?_, fun h => ?_⟩
  · simp [itemAfter, itemAfterCompletion, hbody]
  · simp [itemAfter, itemAfterObjection, hbody, h]
  · have hmany : ¬ it.attempts < 2 := by omega
    simp [itemAfter, itemAfterObjection, hbody, hmany]

/-- What is reported of a notice (R42, R43). -/
theorem outcomeReport_notice {it : TxItem} {n : SeqNumber} (hseq : it.eventSeq = some n) :
    outcomeReport .completed it = some (n, .sent) ∧ outcomeReport .lost it = none ∧
    outcomeReport .objected it = outcomeReport .collided it ∧
    (it.attempts < 2 → outcomeReport .collided it = none) ∧
    (2 ≤ it.attempts → outcomeReport .collided it = some (n, .droppedObjected)) := by
  refine ⟨?_, ?_, ?_, fun h => ?_, fun h => ?_⟩
  · simp [outcomeReport, hseq]
  · simp [outcomeReport, hseq]
  · simp [outcomeReport, hseq]
  · simp [outcomeReport, hseq, h]
  · have hmany : ¬ it.attempts < 2 := by omega
    simp [outcomeReport, hseq, hmany]

/-- A PRESENCE item after its frame: it leaves but for LOST, or where it holds a new body (R42). -/
theorem itemAfter_presence {how : FrameEnd} {it : TxItem} {b : PresenceBody} (hbody : it.body = .presence b) :
    itemAfter how it = if how = .lost ∨ it.refreshed = true then some { it with refreshed := false } else none := by
  cases how <;> simp [itemAfter, itemAfterCompletion, itemAfterObjection, hbody]

theorem outcomeReport_none {how : FrameEnd} {it : TxItem} (hseq : it.eventSeq = none) :
    outcomeReport how it = none := by
  cases how <;> simp [outcomeReport, hseq]

/-! ## The score -/

/-- The collision count after an own frame (R34). -/
def collisionsAfter (how : FrameEnd) (collisions : Nat) : Nat :=
  if how = .lost then collisions else if how = .collided ∧ collisions < 2 then collisions + 1 else 0

/-- The state with the collision count of an outcome. -/
def collisionsCounted (how : FrameEnd) (s : State) : State :=
  { s with line := { s.line with collisions := collisionsAfter how s.line.collisions } }

/-- A third collision in a row (R34). -/
theorem scoreOwnFrame_of_third {s : State} (h : 2 ≤ s.line.collisions) :
    scoreOwnFrame .collided s =
      if s.line.standing = .withdrawn then
        raiseUrgent .duplicateStation (presentDate s) (collisionsCounted .collided s)
      else withdrawal 192 (raiseUrgent .duplicateStation (presentDate s) (collisionsCounted .collided s)) := by
  have hmany : ¬ s.line.collisions < 2 := by omega
  have hcount : collisionsAfter .collided s.line.collisions = 0 := by simp [collisionsAfter, hmany]
  rw [scoreOwnFrame_eq]
  dsimp only
  rw [if_pos h, duplicateStation_eq]
  simp only [collisionsCounted, hcount]
  rfl

/-- Every other outcome but LOST, while WITHDRAWN (R35). -/
theorem scoreOwnFrame_of_withdrawn {how : FrameEnd} {s : State} (hlost : how ≠ .lost)
    (h : ¬ (how = .collided ∧ 2 ≤ s.line.collisions)) (hw : s.line.standing = .withdrawn) :
    scoreOwnFrame how s = collisionsCounted how s := by
  rw [scoreOwnFrame_eq]
  cases how with
  | lost => exact absurd rfl hlost
  | collided =>
    have hfew : ¬ 2 ≤ s.line.collisions := fun hmany => h ⟨rfl, hmany⟩
    have hlt : s.line.collisions < 2 := by omega
    simp [hw, hfew, collisionsCounted, collisionsAfter, hlt]
  | objected => simp [hw, collisionsCounted, collisionsAfter]
  | completed => simp [hw, collisionsCounted, collisionsAfter]

/-- The same outside WITHDRAWN: the score of R35 and what follows from it (R36, R38). -/
theorem scoreOwnFrame_of_sending {how : FrameEnd} {s : State} (hlost : how ≠ .lost)
    (h : ¬ (how = .collided ∧ 2 ≤ s.line.collisions)) (hw : s.line.standing ≠ .withdrawn)
    (hscore : s.line.score ≤ 191) :
    (how = .completed → scoreOwnFrame how s = withScore (s.line.score - 1) (collisionsCounted how s)) ∧
    (how ≠ .completed → s.line.score + 8 < 192 →
      scoreOwnFrame how s = withScore (s.line.score + 8) (collisionsCounted how s)) ∧
    (how ≠ .completed → 192 ≤ s.line.score + 8 →
      scoreOwnFrame how s = withdrawal (s.line.score + 8) (collisionsCounted how s)) := by
  have hup : scoreUp 8 s.line.score = s.line.score + 8 := by
    simp only [scoreUp, saturatingAdd]
    omega
  have hdown : ¬ 192 ≤ s.line.score - 1 := by omega
  rw [scoreOwnFrame_eq]
  cases how with
  | lost => exact absurd rfl hlost
  | collided =>
    have hfew : ¬ 2 ≤ s.line.collisions := fun hmany => h ⟨rfl, hmany⟩
    have hlt : s.line.collisions < 2 := by omega
    dsimp only
    rw [if_neg hfew, if_neg hw, hup]
    refine ⟨by simp, fun _ hb => ?_, fun _ hb => ?_⟩
    · rw [if_neg (Nat.not_le.mpr hb)]
      simp [collisionsCounted, collisionsAfter, hlt]
    · rw [if_pos hb]
      simp [collisionsCounted, collisionsAfter, hlt]
  | objected =>
    dsimp only
    rw [if_neg hw, hup]
    exact ⟨by simp, fun _ hb => if_neg (Nat.not_le.mpr hb), fun _ hb => if_pos hb⟩
  | completed =>
    dsimp only
    rw [if_neg hw]
    exact ⟨fun _ => if_neg hdown, by simp, by simp⟩

/-- Settles O29: the item first, then the score of the state that the item's outcome left. -/
theorem ownFrameOutcomesSettleItemAndScore : Obligations.OwnFrameOutcomesSettleItemAndScore := by
  intro s fr owner how hs hown l records ended count
  refine ⟨fun howner => ?noBlock, fun howner => ?owned⟩
  case noBlock =>
    have hended : lineAfterOwn how false s.line = { ended with remainder := none } := by cases how <;> rfl
    subst howner
    rw [exec_frameOutcome_noBlock hown, hended]
  case owned =>
    have hended : lineAfterOwn how true s.line = ended := by cases how <;> rfl
    refine ⟨itemsSettled how owner l.txQueue, recordsReported (reportSettled how owner l.txQueue) records, _,
      exec_frameOutcome hs hown howner, ?agreement, ?absent, ?held, ?score⟩
    case agreement =>
      rintro rfl
      exact ⟨rfl, rfl⟩
    case absent =>
      rintro order rfl habsent
      obtain ⟨hitems, hreport⟩ := settled_of_absent (how := how) habsent
      rw [hitems, hreport]
      exact ⟨rfl, rfl⟩
    case held =>
      rintro before it after rfl hqueue hothers
      obtain ⟨hitems, hreport⟩ := settled_of_held (how := how) hothers
      rw [hqueue, hitems, hreport]
      refine ⟨fun urgent b n hbody hseq => ?notice, fun b hbody hseq => ?presence⟩
      case notice =>
        obtain ⟨hcompleted, hobjected, hagain, hlast⟩ := itemAfter_notice hbody
        obtain ⟨hsent, hkept, hreported, hnone, hdropped⟩ := outcomeReport_notice hseq
        refine ⟨fun h => ?_, fun h => ?_, fun h => ?_⟩
        · simp [h, hcompleted, hsent, recordsReported]
        · simp [h, hkept, itemAfter, recordsReported]
        · have hitem : itemAfter how it = itemAfter .collided it := by rcases h with rfl | rfl <;> simp [hobjected]
          have hreport : outcomeReport how it = outcomeReport .collided it := by
            rcases h with rfl | rfl <;> simp [hreported]
          rw [hitem, hreport]
          refine ⟨fun hfew => ?_, fun hmany => ?_⟩
          · simp [hagain hfew, hnone hfew, recordsReported]
          · simp [hlast hmany, hdropped hmany, recordsReported]
      case presence =>
        rw [itemAfter_presence hbody, outcomeReport_none hseq]
        refine ⟨rfl, fun h => ?_, fun hlost hfresh => ?_⟩
        · simp [h]
        · simp [hlost, hfresh]
    case score =>
      intro settled counted
      have hsettled : ownerTakes how owner { s with line := lineAfterOwn how true s.line } = settled := by
        rw [hended, ownerTakes_eq]
      rw [hsettled]
      refine ⟨fun h => ?_, fun h hthird => ?_, fun hlost hother => ⟨fun hw => ?_, fun hw hscore => ?_⟩⟩
      · rw [h]
        rfl
      · have hthird := scoreOwnFrame_of_third (s := settled) hthird
        rw [← h] at hthird
        exact ⟨fun hw => hthird.trans (if_pos hw), fun hw => hthird.trans (if_neg hw)⟩
      · exact scoreOwnFrame_of_withdrawn (s := settled) hlost hother hw
      · exact scoreOwnFrame_of_sending (s := settled) hlost hother hw hscore

end Sys2Proof.Machine

/-! # The check of R196: one wrong bit of a frame changes it -/

namespace Sys2Proof.Machine

/-! ## The register -/

/-- The lowest place of the register tells whether the generator was added. -/
theorem crcStep_lowest (r : BitVec 16) (bit : Bool) : (crcStep r bit).getLsbD 0 = (bit != r.msb) := by
  unfold crcStep
  split_ifs with h
  · simp [h]
  · simp only [Bool.not_eq_true] at h
    simp [h]

/-- Without the generator the register was shifted (R196). -/
theorem crcStep_shift (r : BitVec 16) (bit : Bool) :
    crcStep r bit ^^^ (if (crcStep r bit).getLsbD 0 = true then 0x1021#16 else 0#16) = r <<< 1 := by
  rw [crcStep_lowest]
  unfold crcStep
  split_ifs
  · rw [BitVec.xor_assoc, BitVec.xor_self, BitVec.xor_zero]
  · rw [BitVec.xor_zero]

/-- The register before a bit is told by that bit and the register after it. -/
theorem crcStep_injective {r r' : BitVec 16} {bit : Bool} (h : crcStep r bit = crcStep r' bit) : r = r' := by
  have hhighest : r.msb = r'.msb := by
    have := crcStep_lowest r bit
    rw [h, crcStep_lowest] at this
    simpa using this.symm
  have hshift : r <<< 1 = r' <<< 1 := by rw [← crcStep_shift r bit, ← crcStep_shift r' bit, h]
  refine BitVec.eq_of_getLsbD_eq fun i hi => ?_
  by_cases hlast : i = 15
  · rw [BitVec.msb_eq_getLsbD_last, BitVec.msb_eq_getLsbD_last] at hhighest
    simpa only [hlast] using hhighest
  · have hi' : i + 1 < 16 := by omega
    have hplace := congrArg (·.getLsbD (i + 1)) hshift
    simpa only [BitVec.getLsbD_shiftLeft, hi', decide_true, Bool.true_and, Nat.not_lt.mpr (Nat.le_add_left 1 i),
      decide_false, Bool.not_false, Nat.add_sub_cancel] using hplace

theorem crcSteps_injective (bits : List Bool) {r r' : BitVec 16}
    (h : bits.foldl crcStep r = bits.foldl crcStep r') : r = r' := by
  induction bits generalizing r r' with
  | nil => exact h
  | cons bit rest ih => exact crcStep_injective (ih h)

theorem crcStep_bit_ne (r : BitVec 16) (bit : Bool) : crcStep r bit ≠ crcStep r (!bit) := by
  intro h
  have := congrArg (·.getLsbD 0) h
  simp only [crcStep_lowest] at this
  cases bit <;> simp at this

theorem crc16_append (before after : List Bool) : crc16 (before ++ after) = after.foldl crcStep (crc16 before) :=
  List.foldl_append

/-- A part in front that changes the register changes the check, whatever follows it. -/
theorem crc16_append_ne {before before' : List Bool} (h : crc16 before ≠ crc16 before') (after : List Bool) :
    crc16 (before ++ after) ≠ crc16 (before' ++ after) := by
  rw [crc16_append, crc16_append]
  exact fun he => h (crcSteps_injective after he)

/-- Two sequences of bits that differ in one place have different checks. -/
theorem crc16_ne_of_bit (before after : List Bool) (bit : Bool) :
    crc16 (before ++ bit :: after) ≠ crc16 (before ++ (!bit) :: after) := by
  have hbit : crc16 (before ++ [bit]) ≠ crc16 (before ++ [!bit]) := by
    rw [crc16_append, crc16_append]
    exact crcStep_bit_ne _ bit
  simpa using crc16_append_ne hbit after

theorem crc16_snoc (sent : List Bool) (bit : Bool) :
    crc16 (sent ++ [bit]) =
      if (bit != (crc16 sent).getLsbD 15) = true then (crc16 sent <<< 1) ^^^ (1#16 <<< 12 ||| 1#16 <<< 5 ||| 1#16)
      else crc16 sent <<< 1 := by
  rw [crc16_append]
  change crcStep _ bit = _
  unfold crcStep
  rw [BitVec.msb_eq_getLsbD_last]
  rfl

/-! ## One place of a frame -/

/-- The second sequence is the first with one place inverted. -/
def DiffersInOne (sent heard : List Bool) : Prop :=
  ∃ before after bit, sent = before ++ bit :: after ∧ heard = before ++ (!bit) :: after

theorem DiffersInOne.crc16_ne {sent heard : List Bool} (h : DiffersInOne sent heard) : crc16 heard ≠ crc16 sent := by
  obtain ⟨before, after, bit, rfl, rfl⟩ := h
  exact (crc16_ne_of_bit before after bit).symm

theorem DiffersInOne.prepend (front : List Bool) {sent heard : List Bool} (h : DiffersInOne sent heard) :
    DiffersInOne (front ++ sent) (front ++ heard) := by
  obtain ⟨before, after, bit, rfl, rfl⟩ := h
  exact ⟨front ++ before, after, bit, by simp, by simp⟩

theorem DiffersInOne.append {sent heard : List Bool} (h : DiffersInOne sent heard) (back : List Bool) :
    DiffersInOne (sent ++ back) (heard ++ back) := by
  obtain ⟨before, after, bit, rfl, rfl⟩ := h
  exact ⟨before, after ++ back, bit, by simp, by simp⟩

theorem differsInOne_single (bit : Bool) : DiffersInOne [bit] [!bit] := ⟨[], [], bit, rfl, rfl⟩

theorem differsInOne_set {l : List Bool} {p : Nat} (hp : p < l.length) : DiffersInOne l (l.set p (!l[p])) := by
  refine ⟨l.take p, l.drop (p + 1), l[p], ?_, ?_⟩
  · simp
  · rw [List.set_eq_take_append_cons_drop, if_pos hp]

theorem getLsbD_flip {n : Nat} (w : BitVec n) {i j : Nat} (hj : j < n) :
    (w ^^^ (1#n <<< i)).getLsbD j = if j = i then !w.getLsbD j else w.getLsbD j := by
  have hone : (1#n <<< i).getLsbD j = decide (j = i) := by
    rw [BitVec.getLsbD_shiftLeft, BitVec.getLsbD_one]
    rw [Bool.eq_iff_iff]
    simp only [Bool.and_eq_true, Bool.not_eq_true', decide_eq_true_eq, decide_eq_false_iff_not]
    omega
  rw [BitVec.getLsbD_xor, hone]
  split_ifs with h <;> simp [h]

theorem msbBits_getElem {n : Nat} (w : BitVec n) {p : Nat} (hp : p < (msbBits w).length) :
    (msbBits w)[p] = w.getLsbD (n - 1 - p) := by
  simp [msbBits]

/-- A field with one bit inverted (R195). -/
theorem msbBits_differsInOne {n : Nat} (w : BitVec n) {i : Nat} (hi : i < n) :
    DiffersInOne (msbBits w) (msbBits (w ^^^ (1#n <<< i))) := by
  have hp : n - 1 - i < (msbBits w).length := by simp [msbBits]; omega
  have hset : msbBits (w ^^^ (1#n <<< i)) = (msbBits w).set (n - 1 - i) (!(msbBits w)[n - 1 - i]) := by
    refine List.ext_getElem (by simp [msbBits]) fun p hlt _ => ?_
    have hlt' : p < n := by simpa [msbBits] using hlt
    have hplace : n - 1 - i = p ↔ n - 1 - p = i := by omega
    simp only [List.getElem_set, msbBits_getElem, hplace]
    rw [getLsbD_flip w (by omega)]
    split_ifs with h
    · rw [hplace.mpr h]
    · rfl
  exact hset ▸ differsInOne_set hp

theorem flip_ne {n : Nat} (w : BitVec n) {i : Nat} (hi : i < n) : w ^^^ (1#n <<< i) ≠ w := by
  intro h
  have := congrArg (·.getLsbD i) h
  simp [getLsbD_flip w hi] at this

/-! ## The frames, field by field (R195) -/

/-- A good frame is bad once a place under its check is inverted (R33). -/
theorem check_ne_of_bit {check : BitVec 16} {sent heard : List Bool} (hgood : (check == crc16 sent) = true)
    (h : DiffersInOne sent heard) : (check == crc16 heard) = false := by
  rw [beq_iff_eq] at hgood
  simpa [hgood] using h.crc16_ne.symm

/-- A good frame is bad once a place of its check is inverted (R33). -/
theorem check_ne_of_flip {check value : BitVec 16} (hgood : (check == value) = true) {i : Nat} (hi : i < 16) :
    (check ^^^ (1#16 <<< i) == value) = false := by
  rw [beq_iff_eq] at hgood
  simpa [← hgood] using flip_ne check hi

theorem headerBits_rank (kind : BitVec 2) (rank : BitVec 4) (origin : BitVec 6) {i : Nat} (hi : i < 4) :
    DiffersInOne (headerBits kind rank origin) (headerBits kind (rank ^^^ (1#4 <<< i)) origin) :=
  ((msbBits_differsInOne rank hi).prepend _).append _

theorem headerBits_origin (kind : BitVec 2) (rank : BitVec 4) (origin : BitVec 6) {i : Nat} (hi : i < 6) :
    DiffersInOne (headerBits kind rank origin) (headerBits kind rank (origin ^^^ (1#6 <<< i))) :=
  (msbBits_differsInOne origin hi).prepend _

/-- A TIME frame with one bit inverted in any of its fields. -/
theorem timeFrame_wrong_bit {f : TimeFrame} (hgood : timeFrameGood f = true) :
    (∀ i < 4, timeFrameGood { f with rank := f.rank ^^^ (1#4 <<< i) } = false) ∧
    (∀ i < 6, timeFrameGood { f with origin := f.origin ^^^ (1#6 <<< i) } = false) ∧
    (∀ i < 16, timeFrameGood { f with body := { f.body with day := f.body.day ^^^ (1#16 <<< i) } } = false) ∧
    (∀ i < 37, timeFrameGood { f with body := { f.body with us := f.body.us ^^^ (1#37 <<< i) } } = false) ∧
    (∀ i < 8, timeFrameGood { f with body := { f.body with epoch := f.body.epoch ^^^ (1#8 <<< i) } } = false) ∧
    (∀ i < 3, timeFrameGood { f with body := { f.body with
      timeState := f.body.timeState ^^^ (1#3 <<< i) } } = false) ∧
    (∀ i < 16, timeFrameGood { f with check := f.check ^^^ (1#16 <<< i) } = false) := by
  refine ⟨fun i hi => ?rank, fun i hi => ?origin, fun i hi => ?day, fun i hi => ?us, fun i hi => ?epoch,
    fun i hi => ?timeState, fun i hi => check_ne_of_flip hgood hi⟩ <;> refine check_ne_of_bit hgood ?_
  case rank => exact (headerBits_rank _ _ _ hi).append _
  case origin => exact (headerBits_origin _ _ _ hi).append _
  case day => exact ((((msbBits_differsInOne _ hi).append _).append _).append _).prepend _
  case us => exact ((((msbBits_differsInOne _ hi).prepend _).append _).append _).prepend _
  case epoch => exact (((msbBits_differsInOne _ hi).prepend _).append _).prepend _
  case timeState => exact ((msbBits_differsInOne _ hi).prepend _).prepend _

/-- The kinds NOTICE and URGENT NOTICE differ in both bits of the kind: the register tells them apart at once. -/
theorem noticeKind_crc16_ne (urgent : Bool) :
    crc16 (msbBits (noticeKind !urgent)) ≠ crc16 (msbBits (noticeKind urgent)) := by
  cases urgent <;> decide

/-- A notice with one bit inverted in any of its fields, or read as the other kind of notice. -/
theorem noticeFrame_wrong_bit {f : NoticeFrame} (hgood : noticeFrameGood f = true) :
    noticeFrameGood { f with urgent := !f.urgent } = false ∧
    (∀ i < 4, noticeFrameGood { f with rank := f.rank ^^^ (1#4 <<< i) } = false) ∧
    (∀ i < 6, noticeFrameGood { f with origin := f.origin ^^^ (1#6 <<< i) } = false) ∧
    (∀ i < 6, noticeFrameGood { f with body := { f.body with channel := f.body.channel ^^^ (1#6 <<< i) } } = false) ∧
    noticeFrameGood { f with body := { f.body with newState := !f.body.newState } } = false ∧
    (∀ i < 8, noticeFrameGood { f with body := { f.body with seq := f.body.seq ^^^ (1#8 <<< i) } } = false) ∧
    (∀ i < 16, noticeFrameGood { f with body := { f.body with day := f.body.day ^^^ (1#16 <<< i) } } = false) ∧
    (∀ i < 37, noticeFrameGood { f with body := { f.body with us := f.body.us ^^^ (1#37 <<< i) } } = false) ∧
    (∀ i < 8, noticeFrameGood { f with body := { f.body with epoch := f.body.epoch ^^^ (1#8 <<< i) } } = false) ∧
    (∀ i < 3, noticeFrameGood { f with body := { f.body with
      timeState := f.body.timeState ^^^ (1#3 <<< i) } } = false) ∧
    (∀ i < 16, noticeFrameGood { f with check := f.check ^^^ (1#16 <<< i) } = false) := by
  have hbody {heard : List Bool} (h : DiffersInOne (noticeBodyBits f.body) heard) :
      (f.check == crc16 (headerBits (noticeKind f.urgent) f.rank f.origin ++ heard)) = false :=
    check_ne_of_bit hgood (h.prepend _)
  refine ⟨?urgent, fun i hi => ?rank, fun i hi => ?origin, fun i hi => hbody ?channel, hbody ?newState,
    fun i hi => hbody ?seq, fun i hi => hbody ?day, fun i hi => hbody ?us, fun i hi => hbody ?epoch,
    fun i hi => hbody ?timeState, fun i hi => check_ne_of_flip hgood hi⟩
  case urgent =>
    have hgood : f.check = noticeFrameCheck f.urgent f.rank f.origin f.body := beq_iff_eq.mp hgood
    have hne : noticeFrameCheck (!f.urgent) f.rank f.origin f.body ≠
        noticeFrameCheck f.urgent f.rank f.origin f.body := by
      unfold noticeFrameCheck headerBits
      simp only [List.append_assoc]
      exact crc16_append_ne (noticeKind_crc16_ne f.urgent) _
    simpa [noticeFrameGood, hgood] using hne.symm
  case rank => exact check_ne_of_bit hgood ((headerBits_rank _ _ _ hi).append _)
  case origin => exact check_ne_of_bit hgood ((headerBits_origin _ _ _ hi).append _)
  case channel =>
    exact ((((((msbBits_differsInOne _ hi).append _).append _).append _).append _).append _).append _
  case newState => exact ((((((differsInOne_single _).prepend _).append _).append _).append _).append _).append _
  case seq => exact (((((msbBits_differsInOne _ hi).prepend _).append _).append _).append _).append _
  case day => exact ((((msbBits_differsInOne _ hi).prepend _).append _).append _).append _
  case us => exact (((msbBits_differsInOne _ hi).prepend _).append _).append _
  case epoch => exact ((msbBits_differsInOne _ hi).prepend _).append _
  case timeState => exact (msbBits_differsInOne _ hi).prepend _

/-- A PRESENCE frame with one bit inverted in any of its fields. -/
theorem presenceFrame_wrong_bit {f : PresenceFrame} (hgood : presenceFrameGood f = true) :
    (∀ i < 4, presenceFrameGood { f with rank := f.rank ^^^ (1#4 <<< i) } = false) ∧
    (∀ i < 6, presenceFrameGood { f with origin := f.origin ^^^ (1#6 <<< i) } = false) ∧
    (∀ i < 3, presenceFrameGood { f with body := { f.body with
      timeState := f.body.timeState ^^^ (1#3 <<< i) } } = false) ∧
    (∀ i < 4, presenceFrameGood { f with body := { f.body with grade := f.body.grade ^^^ (1#4 <<< i) } } = false) ∧
    (∀ i < 8, presenceFrameGood { f with body := { f.body with epoch := f.body.epoch ^^^ (1#8 <<< i) } } = false) ∧
    (∀ i < 8, presenceFrameGood { f with body := { f.body with
      lastSeq := f.body.lastSeq ^^^ (1#8 <<< i) } } = false) ∧
    (∀ i < 2, presenceFrameGood { f with body := { f.body with
      standing := f.body.standing ^^^ (1#2 <<< i) } } = false) ∧
    (∀ i < 16, presenceFrameGood { f with check := f.check ^^^ (1#16 <<< i) } = false) := by
  refine ⟨fun i hi => ?rank, fun i hi => ?origin, fun i hi => ?timeState, fun i hi => ?grade, fun i hi => ?epoch,
    fun i hi => ?lastSeq, fun i hi => ?standing, fun i hi => check_ne_of_flip hgood hi⟩ <;>
    refine check_ne_of_bit hgood ?_
  case rank => exact (headerBits_rank _ _ _ hi).append _
  case origin => exact (headerBits_origin _ _ _ hi).append _
  case timeState => exact (((((msbBits_differsInOne _ hi).append _).append _).append _).append _).prepend _
  case grade => exact (((((msbBits_differsInOne _ hi).prepend _).append _).append _).append _).prepend _
  case epoch => exact ((((msbBits_differsInOne _ hi).prepend _).append _).append _).prepend _
  case lastSeq => exact (((msbBits_differsInOne _ hi).prepend _).append _).prepend _
  case standing => exact ((msbBits_differsInOne _ hi).prepend _).prepend _

/-- Settles O53: a step of the register can be undone, so what differs in one place differs in the check. -/
theorem checkDetectsASingleWrongBit : Obligations.CheckDetectsASingleWrongBit := by
  unfold Obligations.CheckDetectsASingleWrongBit
  intro bits
  refine ⟨⟨rfl, crc16_snoc⟩, crc16_ne_of_bit, fun rank origin b => ?time, fun urgent rank origin b => ?notice,
    fun rank origin b => ?presence, fun kind rest i hi => ?kind, fun rank origin body => beq_self_eq_true _,
    fun urgent rank origin body => beq_self_eq_true _, fun rank origin body => beq_self_eq_true _,
    fun f => timeFrame_wrong_bit, fun f => noticeFrame_wrong_bit, fun f => presenceFrame_wrong_bit⟩
  case time => simp only [timeFrameCheck, headerBits, timeBodyBits, ← List.append_assoc]; rfl
  case notice => simp only [noticeFrameCheck, headerBits, noticeBodyBits, ← List.append_assoc]; rfl
  case presence => simp only [presenceFrameCheck, headerBits, presenceBodyBits, ← List.append_assoc]; rfl
  case kind => exact ((msbBits_differsInOne kind hi).append rest).crc16_ne

end Sys2Proof.Machine

/-! # START (R44, R46, R48, R72, R103, R191, R192) -/

namespace Sys2Proof.Machine

/-- START in a select period without parameters, in CONFIG. -/
theorem exec_start {s : State} (hs : s.port.station = .config) :
    exec (.start { params := [], early := false }) s = .next (answered (startStation (clockOutAnswer 1 s))) :=
  congrArg _ (selectCommand_taken (by simp [hs]) (by simp) rfl (by simp [inConfig, hs]))

/-- START refused for the bad item (R191). -/
theorem start_refused {s : State} {cls index : Nat} (hs : s.port.station = .config)
    (hbad : badItem s.port.image = some (cls, index)) :
    AnswersWith (.start { params := [], early := false }) s [1, 5, octet cls, octet index] := by
  obtain ⟨hanswer, hrest⟩ := answered_refuse (.config cls index) 1 s
  refine ⟨_, ?_, hanswer, hrest⟩
  rw [exec_start hs]
  simp [startStation, hbad]

/-! ## The START records -/

/-- An event queue that holds these records alone, numbered from 0 and all of one instant (R98, R103). -/
def queueOfStart (stamp : Stamp) (cause : ResetCause) (bodies : List EventBody) : EventQueue :=
  { records := bodies.zipIdx.map fun b => { seq := BitVec.ofNat 16 b.2, stamp := stamp, body := b.1 }
    nextSeq := BitVec.ofNat 16 bodies.length, lost := none, cause := cause }

/-- A record offered at that instant, while a field-class record has room, is the next of them (R98, R100). -/
theorem offerRecordNow_atStart {s : State} {cause : ResetCause} {bodies : List EventBody} (body : EventBody)
    (hq : s.events = queueOfStart (stampNow s) cause bodies) (hroom : bodies.length < 508) :
    offerRecordNow body s = { s with events := queueOfStart (stampNow s) cause (bodies ++ [body]) } := by
  have hnext : BitVec.ofNat 16 bodies.length + 1#16 = BitVec.ofNat 16 (bodies.length + 1) := by
    rw [BitVec.ofNat_add]
  have hadmit : admitRecord (stampNow s) body s.events = queueOfStart (stampNow s) cause (bodies ++ [body]) := by
    rw [hq]
    simp [admitRecord, queueOfStart, List.zipIdx_append, hnext]
  have hlength : s.events.records.length = bodies.length := by simp [hq, queueOfStart]
  have hlost : s.events.lost = none := by rw [hq]; rfl
  have hoffer : offerToQueue (stampNow s) (stampNow s) body s.events =
      (queueOfStart (stampNow s) cause (bodies ++ [body]), false) := by
    have hroom : hasRoom body s.events.records.length = true := (hasRoom_iff _ _).mpr (.inl (hlength ▸ hroom))
    simp [offerToQueue, admitGap, hlost, hroom, hadmit]
  simp [offerRecordNow, offerRecord, hoffer]

/-- What the INPUT terminals among these offer at START (R72). -/
def statesOffered (s : State) (terminals : List (Fin 40)) : List EventBody :=
  (terminals.filter fun t => isInput s.port.image.terminals[t]).map fun t => .stateAtStart t.val s.pins.levels[t]

theorem statesOffered_cons (s : State) (t : Fin 40) (rest : List (Fin 40)) :
    statesOffered s (t :: rest) =
      if isInput s.port.image.terminals[t] = true then .stateAtStart t.val s.pins.levels[t] :: statesOffered s rest
      else statesOffered s rest := by
  unfold statesOffered
  rw [List.filter_cons]
  split_ifs <;> rfl

theorem statesOffered_congr {s t : State} (hport : t.port.image = s.port.image) (hpins : t.pins = s.pins)
    (terminals : List (Fin 40)) : statesOffered t terminals = statesOffered s terminals := by
  unfold statesOffered
  rw [hport, hpins]

theorem offerStates_atStart (terminals : List (Fin 40)) {s : State} {cause : ResetCause} {bodies : List EventBody}
    (hq : s.events = queueOfStart (stampNow s) cause bodies) (hroom : bodies.length + terminals.length < 508) :
    terminals.foldl offerAtStart s =
      { s with events := queueOfStart (stampNow s) cause (bodies ++ statesOffered s terminals) } := by
  induction terminals generalizing s bodies with
  | nil => simp [statesOffered, ← hq]
  | cons t rest ih =>
    rw [List.foldl_cons, offerAtStart]
    simp only [List.length_cons] at hroom
    split_ifs with hinput
    · have hlength : (bodies ++ [EventBody.stateAtStart t.val s.pins.levels[t]]).length + rest.length < 508 := by
        simp only [List.length_append, List.length_singleton]
        omega
      rw [offerRecordNow_atStart _ hq (by omega), ih rfl hlength, statesOffered_cons, if_pos hinput, List.append_assoc]
      rfl
    · rw [ih hq (by omega), statesOffered_cons, if_neg hinput]

theorem startBodies_eq (s : State) :
    startBodies s = [.start s.events.cause] ++ statesOffered s (List.finRange 40) := rfl

/-- The START instant, at which the station has entered ACQUIRING (assumption log 35). -/
def startStamp (s : State) : Stamp := { date := s.time.date, epoch := s.time.epoch, timeState := .acquiring }

/-- Station state and time state at START, before the records are offered (R48, R192). -/
def runEntered (s : State) : State :=
  { s with port := { s.port with station := .run }, agreement := agreementAtStart s.time.elapsed s.agreement }

/-- The one action of R192, on an event queue as a reset leaves it. -/
theorem carryOutStart_eq {s : State} (hq : s.events = eventQueueReset s.events.cause) :
    carryOutStart s = { runEntered s with
      events := queueOfStart (startStamp s) s.events.cause (startBodies s)
      inputs := (sampleInputs s).inputs
      line := lineAtStart s.line } := by
  have hmarker : offerRecordNow (.start s.events.cause) (runEntered s) = { runEntered s with
      events := queueOfStart (startStamp s) s.events.cause [.start s.events.cause] } :=
    offerRecordNow_atStart (s := runEntered s) (bodies := []) _ hq (by simp)
  have hstates := offerStates_atStart (List.finRange 40)
    (s := sampleInputs (offerRecordNow (.start s.events.cause) (runEntered s))) (cause := s.events.cause)
    (bodies := [.start s.events.cause])
    (by rw [hmarker]; rfl) (by simp)
  have hbodies : [.start s.events.cause] ++ statesOffered
      (sampleInputs (offerRecordNow (.start s.events.cause) (runEntered s))) (List.finRange 40) = startBodies s := by
    rw [startBodies_eq, statesOffered_congr (s := s) (by simp [runEntered]) (by simp [runEntered])]
  have hstart : carryOutStart s = { offerStatesAtStart
      (sampleInputs (offerRecordNow (.start s.events.cause) (runEntered s))) with line := lineAtStart s.line } := by
    simp [carryOutStart, runEntered]
  rw [hstart, offerStatesAtStart, hstates, hbodies, hmarker]
  rfl

theorem sampleInputs_input {s : State} {k : Fin 40} (h : isInput s.port.image.terminals[k] = true) :
    (sampleInputs s).inputs[k] =
      { proven := some s.pins.levels[k], level := s.pins.levels[k], burst := none, unstable := false } := by
  simp_all [sampleInputs, sampleInput]

theorem sampleInputs_other {s : State} {k : Fin 40} (h : isInput s.port.image.terminals[k] = false) :
    (sampleInputs s).inputs[k] = s.inputs[k] := by
  simp_all [sampleInputs, sampleInput]

/-- START carried out, when no item fails and the event queue is as a reset leaves it (R192). -/
theorem exec_start_of_passing {s : State} (hs : s.port.station = .config) (hpasses : ImagePasses s.port.image)
    (hq : s.events = eventQueueReset s.events.cause) :
    exec (.start { params := [], early := false }) s = .next (holdAnswer [0] { runEntered (clockOutAnswer 1 s) with
      events := queueOfStart (startStamp s) s.events.cause (startBodies s)
      inputs := (sampleInputs s).inputs
      line := lineAtStart s.line }) := by
  have hbad : badItem (clockOutAnswer 1 s).port.image = none := by
    simpa using (badItem_eq_none_iff _).mpr hpasses
  have hcarried := carryOutStart_eq (s := clockOutAnswer 1 s) (by simpa using hq)
  have hbodies : startBodies (clockOutAnswer 1 s) = startBodies s := by simp [startBodies]
  have hinputs : (sampleInputs (clockOutAnswer 1 s)).inputs = (sampleInputs s).inputs := by simp [sampleInputs]
  have hstamp : startStamp (clockOutAnswer 1 s) = startStamp s := by simp [startStamp]
  have hevents : (clockOutAnswer 1 s).events = s.events := by simp
  have hline : (clockOutAnswer 1 s).line = s.line := by simp
  rw [hbodies, hinputs, hstamp, hevents, hline] at hcarried
  rw [exec_start hs, startStation, hbad]
  simp only [done, hcarried, answered, doneWith]

/-- Settles O11: the bad item of R191, or the action of R192 read off block by block. -/
theorem startValidatesThenEntersRun : Obligations.StartValidatesThenEntersRun := by
  intro s hs
  dsimp only
  refine ⟨fun t ht hfirst => start_refused hs (badItem_of_terminalFails ht hfirst),
    fun k ht hk hfirst => start_refused hs (badItem_of_pairFails ht hk hfirst),
    fun k ht hp hk hfirst => start_refused hs (badItem_of_lineFails ht hp hk hfirst), fun hpasses hq => ?_⟩
  rw [exec_start_of_passing hs hpasses hq]
  refine ⟨_, rfl, rfl, rfl, rfl, ?next, rfl, fun k hk => ?input, fun k hk => ?other, rfl, rfl⟩
  case next => simp [queueOfStart, startRecords]
  case input => exact sampleInputs_input (s := s) hk
  case other => exact sampleInputs_other (s := s) hk

end Sys2Proof.Machine

/-! # The proven change (R40, R77 to R82, R87) -/

namespace Sys2Proof.Machine

/-! ## The record and the notice (R78, R79, R40, R43) -/

theorem offeredSeq_eq (now : Stamp) (q : EventQueue) :
    offeredSeq now q = if q.lost ≠ none ∧ q.records.length < 512 then q.nextSeq + 1 else q.nextSeq := by
  unfold offeredSeq admitGap
  cases q.lost with
  | none => simp
  | some l =>
    dsimp only
    by_cases h : q.records.length < 512 <;> simp [h, admitRecord]

/-- With no loss open and room for a field-class record, a record is admitted with the next number (R98, R100). -/
theorem offerRecord_of_room {stamp : Stamp} {body : EventBody} {s : State} (hroom : s.events.records.length < 508)
    (hlost : s.events.lost = none) :
    (offerRecord stamp body s).events = admitRecord stamp body s.events := by
  have hhas : hasRoom body s.events.records.length = true := (hasRoom_iff _ _).mpr (.inl hroom)
  simp [offerRecord, offerToQueue, admitGap, hlost, hhas]

/-- A report reaches the newest record, when no other bears its number (R107). -/
theorem writeBroadcast_newest {b : Broadcast} {n : SeqNumber} {l : List EventRecord} {stamp : Stamp} {ch : Nat}
    {st : Bool} {bounces : Nat} {ns : Option NoticeSeq} (h : ∀ r ∈ l, r.seq ≠ n) :
    writeBroadcast b n (l ++ [{ seq := n, stamp := stamp, body := .stateChange ch st bounces .queued ns }]) =
      l ++ [{ seq := n, stamp := stamp, body := .stateChange ch st bounces b ns }] := by
  induction l with
  | nil => simp [writeBroadcast]
  | cons r rest ih =>
    have hr : r.seq ≠ n := h r (by simp)
    have hrest := ih fun x hx => h x (by simp [hx])
    rw [List.cons_append, writeBroadcast]
    split
    · rw [if_neg hr, hrest, List.cons_append]
    · rw [hrest, List.cons_append]

/-- An offered notice: its answer reported, and the item queued where the answer is QUEUED (R40, R43). -/
theorem offerNotice_eq (urgent : Bool) (priority : Nat) (body : NoticeBody) (n : SeqNumber) (s : State) :
    offerNotice urgent priority body n s = { s with
      line := { s.line with
        txQueue := (offerNotice urgent priority body n s).line.txQueue
        nextOrder := (offerNotice urgent priority body n s).line.nextOrder }
      events := { s.events with records := writeBroadcast (noticeAnswer s.line) n s.events.records } } := by
  unfold offerNotice
  dsimp only
  split_ifs <;> rfl

theorem offerNotice_of_queued {urgent : Bool} {priority : Nat} {body : NoticeBody} {n : SeqNumber} {s : State}
    (h : noticeAnswer s.line = .queued) :
    (offerNotice urgent priority body n s).line = joinQueue
      { rank := priority, body := .notice urgent body, attempts := 0, eventSeq := some n, order := 0,
        refreshed := false } s.line := by
  unfold offerNotice
  dsimp only
  rw [if_pos h]
  rfl

theorem offerNotice_of_dropped {urgent : Bool} {priority : Nat} {body : NoticeBody} {n : SeqNumber} {s : State}
    (h : noticeAnswer s.line ≠ .queued) : (offerNotice urgent priority body n s).line = s.line := by
  unfold offerNotice
  dsimp only
  rw [if_neg h]
  rfl

theorem recordChange_of_none {t : Fin 40} {on : Bool} {b : Burst} {s : State}
    (h : noticeClassOf s.port.image.terminals[t] = .none) : recordChange t on b s = keepChange t on b s := by
  unfold recordChange
  dsimp only
  rw [h]

theorem recordChange_of_shared {t : Fin 40} {on : Bool} {b : Burst} {s : State} {cls : NoticeClass}
    (h : noticeClassOf s.port.image.terminals[t] = cls) (hcls : cls ≠ .none) :
    recordChange t on b s =
      shareChange t (decide (cls = .urgent)) (priorityOf s.port.image.terminals[t]) on b s := by
  unfold recordChange
  dsimp only
  rw [h]
  cases cls with
  | none => exact absurd rfl hcls
  | normal => rfl
  | urgent => rfl

/-- A shared change once its notice sequence is taken and its STATE CHANGE record offered (R40, R78). -/
def changeOffered (t : Fin 40) (on : Bool) (b : Burst) (s : State) : State :=
  offerRecord b.stamp (.stateChange t.val on b.bounces .queued (some (s.line.ownSeq + 1)))
    { s with line := { s.line with ownSeq := s.line.ownSeq + 1 } }

theorem changeOffered_line (t : Fin 40) (on : Bool) (b : Burst) (s : State) :
    (changeOffered t on b s).line = { s.line with ownSeq := s.line.ownSeq + 1 } := by
  simp [changeOffered]

theorem changeOffered_answer (t : Fin 40) (on : Bool) (b : Burst) (s : State) :
    noticeAnswer (changeOffered t on b s).line = noticeAnswer s.line := by
  rw [changeOffered_line]
  rfl

theorem shareChange_eq (t : Fin 40) (urgent : Bool) (priority : Nat) (on : Bool) (b : Burst) (s : State) :
    shareChange t urgent priority on b s =
      offerNotice urgent priority (noticeBodyOf t on (s.line.ownSeq + 1) b.stamp) (offeredSeq (stampNow s) s.events)
        (changeOffered t on b s) := rfl

/-- The notice of a shared change, and its answer in the record (R40, R43, R79). -/
theorem shareChange_notice (t : Fin 40) (urgent : Bool) (priority : Nat) (on : Bool) (b : Burst) (s : State) :
    shareChange t urgent priority on b s = { changeOffered t on b s with
      line := { (changeOffered t on b s).line with
        txQueue := (shareChange t urgent priority on b s).line.txQueue
        nextOrder := (shareChange t urgent priority on b s).line.nextOrder }
      events := { (changeOffered t on b s).events with
        records := writeBroadcast (noticeAnswer s.line) (offeredSeq (stampNow s) s.events)
          (changeOffered t on b s).events.records } } := by
  rw [shareChange_eq, ← changeOffered_answer t on b s]
  exact offerNotice_eq _ _ _ _ _

theorem shareChange_of_queued {t : Fin 40} {urgent : Bool} {priority : Nat} {on : Bool} {b : Burst} {s : State}
    (h : noticeAnswer s.line = .queued) :
    (shareChange t urgent priority on b s).line.nextOrder = s.line.nextOrder + 1 ∧
    (shareChange t urgent priority on b s).line.txQueue.Perm
      ({ rank := priority, body := .notice urgent (noticeBodyOf t on (s.line.ownSeq + 1) b.stamp), attempts := 0,
         eventSeq := some (offeredSeq (stampNow s) s.events), order := s.line.nextOrder, refreshed := false } ::
        s.line.txQueue) := by
  rw [shareChange_eq, offerNotice_of_queued ((changeOffered_answer t on b s).trans h), changeOffered_line]
  exact ⟨rfl, insertItem_perm _ _⟩

theorem shareChange_of_dropped {t : Fin 40} {urgent : Bool} {priority : Nat} {on : Bool} {b : Burst} {s : State}
    (h : noticeAnswer s.line ≠ .queued) :
    (shareChange t urgent priority on b s).line.nextOrder = s.line.nextOrder ∧
    (shareChange t urgent priority on b s).line.txQueue = s.line.txQueue := by
  rw [shareChange_eq, offerNotice_of_dropped ((changeOffered_answer t on b s).symm ▸ h), changeOffered_line]
  exact ⟨rfl, rfl⟩

/-- A shared change whose record is admitted: the record bears the answer of its notice (R78, R107). -/
theorem shareChange_records {t : Fin 40} {urgent : Bool} {priority : Nat} {on : Bool} {b : Burst} {s : State}
    (hroom : s.events.records.length < 508) (hlost : s.events.lost = none)
    (hfresh : ∀ r ∈ s.events.records, r.seq ≠ s.events.nextSeq) :
    (shareChange t urgent priority on b s).events.records = s.events.records ++ [{
      seq := s.events.nextSeq
      stamp := b.stamp
      body := .stateChange t.val on b.bounces (noticeAnswer s.line) (some (s.line.ownSeq + 1)) }] := by
  have hnumber : offeredSeq (stampNow s) s.events = s.events.nextSeq := by simp [offeredSeq_eq, hlost]
  have hoffered : (changeOffered t on b s).events.records = s.events.records ++ [{
      seq := s.events.nextSeq
      stamp := b.stamp
      body := .stateChange t.val on b.bounces .queued (some (s.line.ownSeq + 1)) }] :=
    congrArg EventQueue.records
      (offerRecord_of_room (s := { s with line := { s.line with ownSeq := s.line.ownSeq + 1 } }) hroom hlost)
  rw [shareChange_notice, hnumber, hoffered]
  exact writeBroadcast_newest hfresh

/-! ## The signals and the limits (R81, R87) -/

/-- Two folds agree where their steps agree on what the first keeps. -/
theorem foldl_congr_of_kept {α β : Type} {P : β → Prop} {f g : β → α → β} (hkeep : ∀ x a, P x → P (f x a))
    (hstep : ∀ x a, P x → f x a = g x a) (l : List α) {x : β} (hx : P x) : l.foldl f x = l.foldl g x := by
  induction l generalizing x with
  | nil => rfl
  | cons a rest ih => rw [List.foldl_cons, List.foldl_cons, ← hstep x a hx, ih (hkeep x a hx)]

/-- The signals of a proven change to one pair, DRIVE first (R81, R85). -/
theorem signalPair_of_configured {t : Fin 40} {on : Bool} {b : Burst} {s : State} {k : Fin 8} {c : PairConfig}
    (h : s.port.image.pairs[k] = some c) :
    signalPair t on b s k =
      let signal (drive : Bool) : Signal := { drive := drive, on := on, stamp := b.stamp, elapsed := b.start }
      let driven := if c.drive = t then takeSignal k c (signal true) s else s
      if c.detection = t then takeSignal k c (signal false) driven else driven := by
  simp only [signalPair, h]

theorem signalPair_of_unconfigured {t : Fin 40} {on : Bool} {b : Burst} {s : State} {k : Fin 8}
    (h : s.port.image.pairs[k] = none) : signalPair t on b s k = s := by
  simp only [signalPair, h]

/-- The used limit of a pair that the change put into MOVING (R87, R89). -/
theorem takeUsedLimit_of_moving {t : Fin 40} {on : Bool} {s : State} {k : Fin 8} {c : PairConfig} {m : MovementStart}
    {expiry : Elapsed} (hc : s.port.image.pairs[k] = some c) (hm : s.pairs[k] = .moving m expiry) :
    takeUsedLimit t on s k =
      if on = true ∧ c.drive = t ∧ reached s.time.elapsed expiry = true then
        { offerRecord (stampNow s)
            (.movement (k.val + 1) .overtime { date := m.stamp.date, epoch := m.stamp.epoch } none) s with
          pairs := s.pairs.set k (.overdue m) }
      else s := by
  have htaken : takeLimit s k = { offerRecord (stampNow s)
      (.movement (k.val + 1) .overtime { date := m.stamp.date, epoch := m.stamp.epoch } none) s with
        pairs := s.pairs.set k (.overdue m) } := by
    have hpairs (body : EventBody) : (offerRecordNow body s).pairs = s.pairs := by simp
    unfold takeLimit putPair
    rw [hm]
    dsimp only
    rw [hpairs]
    rfl
  have hcond : (drivenBy t on s.port.image.pairs[k] && limitReached s.time.elapsed s.pairs[k]) = true ↔
      on = true ∧ c.drive = t ∧ reached s.time.elapsed expiry = true := by
    simp [drivenBy, hc, hm, limitReached, and_assoc]
  simp only [takeUsedLimit, hcond, htaken]

theorem takeUsedLimit_of_other {t : Fin 40} {on : Bool} {s : State} {k : Fin 8}
    (h : s.port.image.pairs[k] = none ∨ ∀ m expiry, s.pairs[k] ≠ .moving m expiry) :
    takeUsedLimit t on s k = s := by
  have hnot : ¬ (drivenBy t on s.port.image.pairs[k] && limitReached s.time.elapsed s.pairs[k]) = true := by
    rcases h with h | h
    · simp [h, drivenBy]
    · cases hp : s.pairs[k] with
      | moving m expiry => exact absurd hp (h m expiry)
      | idle => simp [limitReached]
      | overdue m => simp [limitReached]
  unfold takeUsedLimit
  rw [if_neg hnot]

/-! ## The settle expiry -/

/-- A burst that settles away from the proven state, at its expiry (R75, R77). -/
theorem exec_settleExpiry_of_change {s : State} {k : Fin 40} {b : Burst} {settleMs priority : Nat} {cls : NoticeClass}
    (hs : s.port.station = .run) (hk : s.port.image.terminals[k] = .input settleMs cls priority)
    (hb : s.inputs[k].burst = some b) (hexpiry : reached s.time.elapsed b.expiry = true)
    (hproven : s.inputs[k].proven = some (!s.inputs[k].level)) :
    exec (.settleExpiry k) s = .next (provenChange k s.inputs[k].level b { s with
      inputs := s.inputs.set k
        { proven := some s.inputs[k].level, level := s.inputs[k].level, burst := none, unstable := false } }) := by
  have hdue : settleDue s k = true := by
    unfold settleDue
    rw [hb, hk]
    simp [inRun, hs, isInput, hexpiry]
  have haway : ¬ s.inputs[k].proven = some s.inputs[k].level := by
    rw [hproven]
    simp
  have hexec : exec (.settleExpiry k) s = .next (settle k b s) := by
    simp only [exec, execSettleExpiry, hb, hdue, if_true]
  rw [hexec, settle]
  dsimp only
  rw [if_neg haway]
  rfl

/-- A proven change moves line controller, event queue, checker, report unit and pairs alone. -/
theorem provenChange_eq (t : Fin 40) (on : Bool) (b : Burst) (s : State) :
    provenChange t on b s = { s with
      line := (recordChange t on b s).line
      events := (provenChange t on b s).events
      checker := (provenChange t on b s).checker
      report := (provenChange t on b s).report
      pairs := (provenChange t on b s).pairs } := by
  have hline := provenChange_line t on b s
  have hframe := provenChange_frame t on b s
  generalize provenChange t on b s = u at hline hframe
  obtain ⟨⟩ := s
  obtain ⟨⟩ := u
  simp_all

/-- Settles O37: the five steps of R77, each by what it does to the state before it. -/
theorem provenChangeIsRecordedAndShared : Obligations.ProvenChangeIsRecordedAndShared := by
  intro s k b settleMs cls priority hs hk hb hexpiry hproven on seq answer body closed number signal signalled limited
  have hclass : noticeClassOf closed.port.image.terminals[k] = cls := by
    rw [show closed.port.image.terminals[k] = _ from hk]
    rfl
  have hpriority : priorityOf closed.port.image.terminals[k] = priority := by
    rw [show closed.port.image.terminals[k] = _ from hk]
    rfl
  have hkept (h : cls = .none) : recordChange k on b closed = keepChange k on b closed :=
    recordChange_of_none (hclass.trans h)
  have hshared (h : cls ≠ .none) : recordChange k on b closed =
      shareChange k (decide (cls = .urgent)) priority on b closed :=
    hpriority ▸ recordChange_of_shared hclass h
  have hnumber : offeredSeq (stampNow closed) closed.events = number := offeredSeq_eq _ _
  refine ⟨recordChange k on b closed, _, exec_settleExpiry_of_change hs hk hb hexpiry hproven, hkept,
    fun hcls => ⟨_, rfl, ?shared⟩, fun hroom hlost hfresh => ?record, ?steps, provenChange_eq k on b closed⟩
  case shared =>
    rw [hshared hcls, ← hnumber]
    exact ⟨shareChange_notice _ _ _ _ _ _, fun h => shareChange_of_queued (s := closed) h,
      fun h => shareChange_of_dropped (s := closed) h⟩
  case record =>
    by_cases hcls : cls = .none
    · rw [hkept hcls, if_pos hcls]
      exact congrArg EventQueue.records (offerRecord_of_room (s := closed) hroom hlost)
    · rw [hshared hcls, if_neg hcls]
      exact shareChange_records (s := closed) hroom hlost hfresh
  case steps =>
    intro observed
    have hobserved : observeChange k on b (recordChange k on b closed) = observed := by
      have hport : (recordChange k on b closed).port = s.port := by simp [closed]
      unfold observeChange ownObservation
      rw [hport]
    have hbefore : observed.port = s.port ∧ observed.time = s.time := by
      rw [← hobserved]
      simp [closed]
    have hsignal (x : State) (p : Fin 8) (hx : x.port = s.port ∧ x.time = s.time) :
        signalPair k on b x p = signalled x p := by
      have hpair : x.port.image.pairs[p] = s.port.image.pairs[p] := by rw [hx.1]
      simp only [signalled]
      cases hc : s.port.image.pairs[p] with
      | none => exact signalPair_of_unconfigured (hpair.trans hc)
      | some c => exact signalPair_of_configured (hpair.trans hc)
    have hlimit (x : State) (p : Fin 8) (hx : x.port = s.port ∧ x.time = s.time) :
        takeUsedLimit k on x p = limited x p := by
      have hpair : x.port.image.pairs[p] = s.port.image.pairs[p] := by rw [hx.1]
      simp only [limited]
      cases hc : s.port.image.pairs[p] with
      | none => exact takeUsedLimit_of_other (.inl (hpair.trans hc))
      | some c =>
        cases hm : x.pairs[p] with
        | idle => exact takeUsedLimit_of_other (.inr (by simp [hm]))
        | overdue m => exact takeUsedLimit_of_other (.inr (by simp [hm]))
        | moving m expiry => exact hx.2 ▸ takeUsedLimit_of_moving (hpair.trans hc) hm
    have hafter : (signalPairs k on b observed).port = s.port ∧ (signalPairs k on b observed).time = s.time := by
      simpa using hbefore
    have hsignals (l : List (Fin 8)) : l.foldl (signalPair k on b) observed = l.foldl signalled observed :=
      foldl_congr_of_kept (fun x p hx => by simpa using hx) hsignal l hbefore
    have hlimits (l : List (Fin 8)) : l.foldl (takeUsedLimit k on) (signalPairs k on b observed) =
        l.foldl limited (signalPairs k on b observed) :=
      foldl_congr_of_kept (fun x p hx => by simpa using hx) hlimit l hafter
    rw [provenChange, hobserved, hlimits, signalPairs, hsignals]

end Sys2Proof.Machine

/-! # The silence timer, the loss of the reference and SET TIME (R58, R65, R67) -/

namespace Sys2Proof.Machine

/-! ## The silence timer (R58, R141, R173) -/

theorem silenceTimerDue_of_since {s : State} {since : Elapsed} (hs : s.port.station = .run)
    (hts : s.agreement.timeState = .acquiring) (hsince : s.agreement.silenceTimer = some since) :
    silenceTimerDue s = reached s.time.elapsed (since + usSpan 8000000) := by
  simp [silenceTimerDue, inRun, hs, hts, hsince]

theorem silenceTimerDue_of_stopped {s : State}
    (h : s.agreement.timeState ≠ .acquiring ∨ s.agreement.silenceTimer = none) : silenceTimerDue s = false := by
  unfold silenceTimerDue
  rcases h with h | h
  · split <;> simp [h]
  · simp [h]

theorem exec_silenceTimerExpiry_of_not_due {s : State} (h : silenceTimerDue s = false) :
    exec .silenceTimerExpiry s = .next s := by
  simp [exec, execSilenceTimerExpiry, h]

theorem exec_silenceTimerExpiry_of_due {s : State} (h : silenceTimerDue s = true) :
    exec .silenceTimerExpiry s = .next (followTime { s with agreement := becomeSelfTimed s.agreement }) := by
  simp [exec, execSilenceTimerExpiry, h]

/-- What follows a change of time state leaves a line in the state that the suspending causes call for: a decision
changes none (R173, R176). -/
theorem followTime_clockState (s : State) (k : Fin 4) :
    (followTime s).clocks[k].state =
      (suspendLine (suspendingCause s.agreement.timeState s.supply) s.clocks[k]).state := by
  rw [followTime, decideLines_clocks, (decidedLine_rest _ k).1, refreshSuspension_clocks]
  simp

/-- Without a suspending cause no line is left SUSPENDED (R173). -/
theorem suspendLine_resumes (l : ClockLine) : (suspendLine false l).state ≠ .suspended := by
  rw [suspendLine_state]
  split_ifs <;> simp_all

/-! ## The loss of the reference (R67) -/

theorem referenceLossDue_of_armed {s : State} {a : Arming} (hs : s.port.station = .run)
    (ha : s.agreement.arming = some a) :
    referenceLossDue s = reached s.time.elapsed (a.lastPulse + usSpan 3000000) := by
  simp [referenceLossDue, inRun, hs, ha]

theorem referenceLossDue_of_disarmed {s : State} (h : s.agreement.arming = none) : referenceLossDue s = false := by
  simp [referenceLossDue, h]

theorem exec_referenceLoss_of_not_due {s : State} (h : referenceLossDue s = false) :
    exec .referenceLoss s = .next s := by
  simp [exec, execReferenceLoss, h]

theorem exec_referenceLoss_of_due {s : State} (h : referenceLossDue s = true) :
    exec .referenceLoss s = .next (loseReference s) := by
  simp [exec, execReferenceLoss, h]

/-- The holdover that R67 enters: from grade 1, so at grade 2. -/
theorem loseReference_of_referenced {s : State} (h : s.agreement.timeState = .referenced) :
    loseReference s = raiseUrgent .timeDegraded { date := s.time.date, epoch := s.time.epoch } { s with
      agreement := { s.agreement with
        arming := none
        referenceGood := 0
        timeState := .holdover
        grade := 2
        withoutSource := 0
        holdover := some { grade := 1, elapsed := s.time.elapsed } } } := by
  rw [loseReference, if_pos h]
  rfl

theorem loseReference_of_other {s : State} (h : s.agreement.timeState ≠ .referenced) :
    loseReference s = { s with agreement := { s.agreement with arming := none, referenceGood := 0 } } :=
  if_neg h

/-- Settles O21: each command at its point, before it, and with nothing to run out. -/
theorem silenceAndReferenceLossMoveTheTimeState : Obligations.SilenceAndReferenceLossMoveTheTimeState := by
  intro s hs
  refine ⟨fun since hts hsince => ?silence, fun a ha => ?loss,
    fun h => exec_silenceTimerExpiry_of_not_due (silenceTimerDue_of_stopped h),
    fun h => exec_referenceLoss_of_not_due (referenceLossDue_of_disarmed h)⟩
  case silence =>
    have hdue := silenceTimerDue_of_since hs hts hsince
    refine ⟨fun hpoint => ?_, fun hbefore => exec_silenceTimerExpiry_of_not_due (hdue.trans hbefore)⟩
    have hfollows := followTime_follows { s with agreement := becomeSelfTimed s.agreement }
    have hagreement : (followTime { s with agreement := becomeSelfTimed s.agreement }).agreement =
        becomeSelfTimed s.agreement := by simp
    refine ⟨_, exec_silenceTimerExpiry_of_due (hdue.trans hpoint), hagreement, fun hsupply k => ?_, hfollows.2.1, ?_⟩
    · have hcause : suspendingCause (becomeSelfTimed s.agreement).timeState s.supply = false := by
        simp [becomeSelfTimed, suspendingCause, hsupply]
      rw [followTime_clockState, hcause]
      exact suspendLine_resumes _
    · rw [hagreement]
      exact hfollows
  case loss =>
    have hdue := referenceLossDue_of_armed hs ha
    refine ⟨fun hpoint => ?_, fun hbefore => exec_referenceLoss_of_not_due (hdue.trans hbefore)⟩
    rw [exec_referenceLoss_of_due (hdue.trans hpoint)]
    exact ⟨fun hts => congrArg _ (loseReference_of_referenced hts), fun hts => congrArg _ (loseReference_of_other hts)⟩

/-! ## SET TIME (R65) -/

/-- Only a terminal of role REFERENCE is found (R69). -/
theorem terminal_of_referenceTerminal {img : Image} {k : Fin 40} (h : referenceTerminal img = some k) :
    img.terminals[k] = .reference := by
  have hfound := List.find?_some h
  simpa using hfound

theorem referenceTerminal_eq_none_iff (img : Image) :
    referenceTerminal img = none ↔ ∀ k : Fin 40, img.terminals[k] ≠ .reference := by
  simp [referenceTerminal]

theorem dateInRange_iff (d : Date) : dateInRange d = true ↔ d.day ≤ 65535 ∧ d.us ≤ 86399999999 := by
  rw [dateInRange, Bool.and_eq_true, decide_eq_true_eq, decide_eq_true_eq]
  exact and_congr_right fun _ => Nat.lt_succ_iff

/-- SET TIME with its seven parameter octets, in RUN. -/
theorem exec_setTime {s : State} {params : List Octet} (hs : s.port.station = .run) (hl : params.length = 7) :
    exec (.setTime { params := params, early := false }) s =
      .next (answered (setTimeTo (dateField params 0) (clockOutAnswer (params.length + 1) s))) :=
  congrArg _ (hostCommand_inRun hs hl (by decide))

theorem setTimeTo_of_no_terminal {d : Date} {s : State} (h : referenceTerminal s.port.image = none) :
    setTimeTo d s = refuse .state s :=
  if_pos h

theorem setTimeTo_of_out_of_range {d : Date} {s : State} (h : referenceTerminal s.port.image ≠ none)
    (hd : ¬ dateInRange d = true) : setTimeTo d s = refuse .range s := by
  simp [setTimeTo, h, hd]

theorem setTimeTo_of_in_range {d : Date} {s : State} (h : referenceTerminal s.port.image ≠ none)
    (hd : dateInRange d = true) : setTimeTo d s = done [] (armReference d s) := by
  simp [setTimeTo, h, hd]

/-- Settles O22: the two refusals of R65 in their order, and the arming. -/
theorem setTimeArmsTheReference : Obligations.SetTimeArmsTheReference := by
  intro s params hs hl
  have hexec := exec_setTime hs hl
  have himage : (clockOutAnswer (params.length + 1) s).port.image = s.port.image := rfl
  refine ⟨fun hno => ?_, fun k hk => ?_⟩
  · rw [setTimeTo_of_no_terminal (himage ▸ (referenceTerminal_eq_none_iff _).mpr hno)] at hexec
    exact ⟨_, hexec, answered_refuse _ _ _⟩
  · have hwired : referenceTerminal (clockOutAnswer (params.length + 1) s).port.image ≠ none := fun hno =>
      (referenceTerminal_eq_none_iff _).mp hno k hk
    refine ⟨fun hout => ?_, fun hday hus => ?_⟩
    · have hrange : ¬ dateInRange (dateField params 0) = true := by
        rw [dateInRange_iff]
        omega
      rw [setTimeTo_of_out_of_range hwired hrange] at hexec
      exact ⟨_, hexec, answered_refuse _ _ _⟩
    · rw [setTimeTo_of_in_range hwired ((dateInRange_iff _).mpr ⟨hday, hus⟩)] at hexec
      exact ⟨_, hexec, rfl, rfl⟩

end Sys2Proof.Machine

/-! # Good seconds and the time state (R50, R54, R56 to R63) -/

namespace Sys2Proof.Machine

/-! ## The first accepted outcome in SEARCHING and in SELF-TIMED (R56, R59) -/

/-- The time states in which an accepted outcome leads to SETTLING (R56, R59). -/
def Unsettled (a : Agreement) : Prop :=
  a.timeState = .selfTimed ∨ (a.timeState = .acquiring ∧ a.phase = some .searching)

theorem enterSettling_of_settled (now : Elapsed) {a : Agreement} (h : ¬ Unsettled a) : enterSettling now a = a := by
  obtain ⟨hself, hsearching⟩ := not_or.mp h
  rw [enterSettling, if_neg hself, if_neg hsearching]

theorem enterSettling_of_selfTimed (now : Elapsed) {a : Agreement} (h : a.timeState = .selfTimed) :
    enterSettling now a =
      { a with timeState := .acquiring, phase := some .settling, grade := 15, lineGood := 0, referenceGood := 0,
               silenceTimer := some now } :=
  if_pos h

theorem enterSettling_of_searching (now : Elapsed) {a : Agreement} (hts : a.timeState = .acquiring)
    (hphase : a.phase = some .searching) :
    enterSettling now a = { a with phase := some .settling, lineGood := 0, referenceGood := 0 } := by
  simp [enterSettling, hts, hphase]

/-- Both counts are 0 on entry to SETTLING. -/
theorem goodCount_enterSettling (now : Elapsed) (kind : SourceKind) {a : Agreement} (h : Unsettled a) :
    goodCount kind (enterSettling now a) = 0 := by
  rcases h with h | ⟨hts, hphase⟩
  · rw [enterSettling_of_selfTimed now h]
    cases kind <;> rfl
  · rw [enterSettling_of_searching now hts hphase]
    cases kind <;> rfl

/-- An ACQUIRING station stays so, with its grade and its silence timer. -/
theorem enterSettling_of_acquiring (now : Elapsed) {a : Agreement} (h : a.timeState = .acquiring) :
    (enterSettling now a).timeState = .acquiring ∧ (enterSettling now a).grade = a.grade ∧
    (enterSettling now a).silenceTimer = a.silenceTimer := by
  unfold enterSettling
  split_ifs <;> simp_all

/-! ## The counts (R50) -/

/-- The count of the outcome's own kind; a step sets it to 0 with the other. -/
theorem goodCount_countOutcome_own (kind : SourceKind) (o : Outcome) (a : Agreement) :
    goodCount kind (countOutcome kind o a) = countOwnKind o (goodCount kind a) := by
  cases o <;> cases kind <;> rfl

theorem goodCount_countOutcome_other {kind k : SourceKind} (hk : k ≠ kind) (o : Outcome) (a : Agreement) :
    goodCount k (countOutcome kind o a) = if o = .step then 0 else goodCount k a := by
  cases kind with
  | line =>
    cases k with
    | line => exact absurd rfl hk
    | reference => cases o <;> rfl
  | reference =>
    cases k with
    | line => cases o <;> rfl
    | reference => exact absurd rfl hk

@[simp] theorem countOutcome_phase_silenceTimer (kind : SourceKind) (o : Outcome) (a : Agreement) :
    (countOutcome kind o a).phase = a.phase ∧ (countOutcome kind o a).silenceTimer = a.silenceTimer := by
  unfold countOutcome
  split <;> simp

/-- The count comes to 4 by the fourth good outcome alone. -/
theorem countOwnKind_eq_four_iff (o : Outcome) (n : Nat) :
    goodOutcome o = true ∧ countOwnKind o n = 4 ↔ goodOutcome o = true ∧ n = 3 := by
  simp only [countOwnKind, saturatingAdd]
  refine and_congr_right fun hgood => ?_
  rw [if_pos hgood]
  omega

theorem moveTimeState_goodCount (kind k : SourceKind) (grade : Nat) (o : Outcome) (a : Agreement) :
    goodCount k (moveTimeState kind grade o a) = goodCount k a := by
  rcases moveTimeState_cases kind grade o a with ⟨-, h⟩ | ⟨-, h⟩ | ⟨-, h | h⟩ <;> rw [h] <;> cases k <;> rfl

/-! ## The move of the time state, case by case (R57, R62, R63) -/

/-- The outcome just counted is the fourth good one of its kind. -/
def Fourth (kind : SourceKind) (o : Outcome) (a : Agreement) : Prop :=
  goodOutcome o = true ∧ goodCount kind a = 4

theorem moveTimeState_of_settled {grade : Nat} {o : Outcome} {a : Agreement} (hts : a.timeState = .acquiring)
    (h : Fourth .line o a) : moveTimeState .line grade o a = becomeAgreed grade a := by
  simp [moveTimeState, hts, h.1, h.2]

theorem moveTimeState_of_referenceSettled {grade : Nat} {o : Outcome} {a : Agreement}
    (hts : a.timeState = .acquiring ∨ a.timeState = .agreed) (h : Fourth .reference o a) :
    moveTimeState .reference grade o a = becomeReferenced a := by
  rcases hts with hts | hts <;> simp [moveTimeState, hts, h.1, h.2]

theorem moveTimeState_of_settling {kind : SourceKind} {grade : Nat} {o : Outcome} {a : Agreement}
    (hts : a.timeState = .acquiring) (h : ¬ Fourth kind o a) : moveTimeState kind grade o a = a := by
  have hfew : (goodOutcome o && decide (goodCount kind a = 4)) = false := by simpa [Fourth] using h
  cases kind <;> simp [moveTimeState, hts, hfew]

theorem moveTimeState_of_agreed {kind : SourceKind} {grade : Nat} {o : Outcome} {a : Agreement}
    (hts : a.timeState = .agreed) (h : ¬ (kind = .reference ∧ Fourth kind o a)) :
    moveTimeState kind grade o a = { a with grade := agreedGrade grade } := by
  cases kind with
  | line => simp [moveTimeState, hts]
  | reference =>
    have hfew : (goodOutcome o && decide (goodCount .reference a = 4)) = false := by simpa [Fourth] using h
    simp [moveTimeState, hts, hfew]

theorem moveTimeState_of_holdover (kind : SourceKind) (grade : Nat) (o : Outcome) {a : Agreement}
    (hts : a.timeState = .holdover) : moveTimeState kind grade o a = becomeAgreed grade a := by
  simp [moveTimeState, hts]

theorem moveTimeState_of_referenced (kind : SourceKind) (grade : Nat) (o : Outcome) {a : Agreement}
    (hts : a.timeState = .referenced) : moveTimeState kind grade o a = a := by
  simp [moveTimeState, hts]

/-- A station that stays ACQUIRING is not moved at all. -/
theorem moveTimeState_of_stays {kind : SourceKind} {grade : Nat} {o : Outcome} {a : Agreement}
    (hts : a.timeState = .acquiring) (hstays : (moveTimeState kind grade o a).timeState = .acquiring) :
    moveTimeState kind grade o a = a := by
  rcases moveTimeState_cases kind grade o a with ⟨-, h⟩ | ⟨h, -⟩ | ⟨-, h | h⟩
  · exact h
  · simp [hts] at h
  · simp [h, becomeAgreed] at hstays
  · simp [h, becomeReferenced] at hstays

/-! ## An outcome taken (R13, R50, R54) -/

/-- The agreement controller once an accepted outcome is counted, before the time state moves. -/
def outcomeCounted (now : Elapsed) (kind : SourceKind) (grade : Nat) (o : Outcome) (a : Agreement) : Agreement :=
  { countOutcome kind o (enterSettling now a) with sourceGrade := some grade, acceptedThisSecond := true }

theorem takeOutcome_of_accepted {now : Elapsed} {kind : SourceKind} {grade : Nat} {o : Outcome} {a : Agreement}
    (h : acceptedOutcome o = true) :
    takeOutcome now kind grade o a = moveTimeState kind grade o (outcomeCounted now kind grade o a) :=
  if_pos h

theorem takeOutcome_of_outlier (now : Elapsed) (kind : SourceKind) (grade : Nat) (a : Agreement) :
    takeOutcome now kind grade .outlier a = countOutcome kind .outlier a := rfl

theorem acceptedOutcome_of_good {o : Outcome} (h : goodOutcome o = true) : acceptedOutcome o = true := by
  cases o <;> simp_all [goodOutcome, acceptedOutcome]

theorem outcomeCounted_rest (now : Elapsed) (kind : SourceKind) (grade : Nat) (o : Outcome) (a : Agreement) :
    (outcomeCounted now kind grade o a).timeState = (enterSettling now a).timeState ∧
    (outcomeCounted now kind grade o a).grade = (enterSettling now a).grade ∧
    (outcomeCounted now kind grade o a).silenceTimer = (enterSettling now a).silenceTimer := by
  simp [outcomeCounted]

theorem outcomeCounted_goodCount (now : Elapsed) (kind k : SourceKind) (grade : Nat) (o : Outcome) (a : Agreement) :
    goodCount k (outcomeCounted now kind grade o a) = goodCount k (countOutcome kind o (enterSettling now a)) := by
  cases k <;> rfl

/-- The counts after an outcome are those of R50, from 0 on entry to SETTLING. -/
theorem goodCount_takeOutcome (now : Elapsed) (kind k : SourceKind) (grade : Nat) (o : Outcome) (a : Agreement) :
    goodCount k (takeOutcome now kind grade o a) =
      goodCount k (countOutcome kind o (if acceptedOutcome o = true then enterSettling now a else a)) := by
  unfold takeOutcome
  split_ifs
  · rw [moveTimeState_goodCount]
    exact outcomeCounted_goodCount now kind k grade o a
  · rfl

theorem goodCount_takeOutcome_of_unsettled (now : Elapsed) {kind k : SourceKind} (grade : Nat) {o : Outcome}
    {a : Agreement} (haccepted : acceptedOutcome o = true) (h : Unsettled a) :
    goodCount k (takeOutcome now kind grade o a) = if k = kind ∧ goodOutcome o = true then 1 else 0 := by
  rw [goodCount_takeOutcome, if_pos haccepted]
  by_cases hk : k = kind
  · subst hk
    rw [goodCount_countOutcome_own, goodCount_enterSettling now k h]
    simp [countOwnKind, saturatingAdd]
  · rw [goodCount_countOutcome_other hk, goodCount_enterSettling now k h]
    simp [hk]

theorem goodCount_takeOutcome_of_settled (now : Elapsed) (kind k : SourceKind) (grade : Nat) {o : Outcome}
    {a : Agreement} (h : ¬ (acceptedOutcome o = true ∧ Unsettled a)) :
    goodCount k (takeOutcome now kind grade o a) = goodCount k (countOutcome kind o a) := by
  rw [goodCount_takeOutcome]
  split_ifs with haccepted
  · rw [enterSettling_of_settled now fun hu => h ⟨haccepted, hu⟩]
  · rfl

/-- The outcome that is the fourth once it is counted. -/
theorem fourth_outcomeCounted_iff (now : Elapsed) (kind : SourceKind) (grade : Nat) (o : Outcome) {a : Agreement}
    (h : ¬ Unsettled a) :
    Fourth kind o (outcomeCounted now kind grade o a) ↔ goodOutcome o = true ∧ goodCount kind a = 3 := by
  rw [Fourth, outcomeCounted_goodCount, goodCount_countOutcome_own, enterSettling_of_settled now h]
  exact countOwnKind_eq_four_iff o _

/-- No outcome that enters SETTLING is a fourth. -/
theorem not_fourth_of_unsettled (now : Elapsed) (kind : SourceKind) (grade : Nat) (o : Outcome) {a : Agreement}
    (h : Unsettled a) : ¬ Fourth kind o (outcomeCounted now kind grade o a) := by
  rw [Fourth, outcomeCounted_goodCount, goodCount_countOutcome_own, goodCount_enterSettling now kind h,
    countOwnKind_eq_four_iff]
  simp

theorem not_unsettled_of_timeState {a : Agreement} (h : a.timeState ≠ .selfTimed) (h' : a.timeState ≠ .acquiring) :
    ¬ Unsettled a := by
  simp [Unsettled, h, h']

theorem not_unsettled_of_settling {a : Agreement} (hts : a.timeState = .acquiring) (hphase : a.phase = some .settling) :
    ¬ Unsettled a := by
  simp [Unsettled, hts, hphase]

/-- Outside SEARCHING and SELF-TIMED the time state that moves is the one before the outcome. -/
theorem outcomeCounted_of_settled (now : Elapsed) (kind : SourceKind) (grade : Nat) (o : Outcome) {a : Agreement}
    (h : ¬ Unsettled a) :
    outcomeCounted now kind grade o a =
      { countOutcome kind o a with sourceGrade := some grade, acceptedThisSecond := true } := by
  rw [outcomeCounted, enterSettling_of_settled now h]

/-- An outcome that leaves an ACQUIRING station so leaves its silence timer (R58, R59). -/
theorem takeOutcome_silenceTimer {now : Elapsed} {kind : SourceKind} {grade : Nat} {o : Outcome} {a : Agreement}
    (hts : a.timeState = .acquiring) (hstays : (takeOutcome now kind grade o a).timeState = .acquiring) :
    (takeOutcome now kind grade o a).silenceTimer = a.silenceTimer := by
  cases haccepted : acceptedOutcome o with
  | false => simp [takeOutcome, haccepted]
  | true =>
    obtain ⟨hentered, -, htimer⟩ := enterSettling_of_acquiring now hts
    obtain ⟨hcounted, -, hcountedTimer⟩ := outcomeCounted_rest now kind grade o a
    rw [takeOutcome_of_accepted haccepted] at hstays ⊢
    rw [moveTimeState_of_stays (hcounted.trans hentered) hstays, hcountedTimer, htimer]

/-- The first accepted outcome in SEARCHING or in SELF-TIMED moves the station to SETTLING and no further (R56, R59). -/
theorem takeOutcome_of_unsettled (now : Elapsed) {kind : SourceKind} {grade : Nat} {o : Outcome} {a : Agreement}
    (haccepted : acceptedOutcome o = true) (h : Unsettled a) :
    takeOutcome now kind grade o a = outcomeCounted now kind grade o a := by
  have hts : (outcomeCounted now kind grade o a).timeState = .acquiring := by
    rw [(outcomeCounted_rest now kind grade o a).1]
    rcases h with h | ⟨h, -⟩
    · rw [enterSettling_of_selfTimed now h]
    · exact (enterSettling_of_acquiring now h).1
  rw [takeOutcome_of_accepted haccepted]
  exact moveTimeState_of_settling hts (not_fourth_of_unsettled now kind grade o h)

/-- An accepted outcome elsewhere is counted, and then moves the time state that the station had (R57, R62, R63). -/
theorem takeOutcome_of_settled (now : Elapsed) {kind : SourceKind} {grade : Nat} {o : Outcome} {a : Agreement}
    (haccepted : acceptedOutcome o = true) (h : ¬ Unsettled a) :
    takeOutcome now kind grade o a =
      moveTimeState kind grade o
        { countOutcome kind o a with sourceGrade := some grade, acceptedThisSecond := true } := by
  rw [takeOutcome_of_accepted haccepted, outcomeCounted_of_settled now kind grade o h]

/-- Settles O26: each transition by the move of its time state, each count by the table of R50. -/
theorem goodSecondsMoveTheTimeState : Obligations.GoodSecondsMoveTheTimeState := by
  intro now grade o a other entersSettling
  have hother (kind : SourceKind) : other kind ≠ kind := by cases kind <;> simp [other]
  have hgood_ne (h : goodOutcome o = true) : o ≠ .step := by
    rintro rfl
    simp [goodOutcome] at h
  refine ⟨fun hts hphase hgood hthree => ?agrees, fun hts hgood hthree => ?references,
    fun kind haccepted hts => ?enters, fun kind henters => ?entersCounts, fun kind haccepted hts => ?timerTaken,
    fun kind hts hstays => takeOutcome_silenceTimer hts hstays, fun kind haccepted hts => ?holdover,
    fun kind haccepted hts hphase hfew => ?settling, fun kind haccepted hts hfew => ?agreed,
    fun kind hts => ?referenced, fun kind hstep => ?step, fun kind hgood hsettled => ?good,
    fun kind hslew => ?slew, fun kind houtlier => ?outlier⟩
  case agrees =>
    have hsettled := not_unsettled_of_settling hts hphase
    have hfourth := (fourth_outcomeCounted_iff now .line grade o hsettled).mpr ⟨hgood, hthree⟩
    rw [outcomeCounted_of_settled now .line grade o hsettled] at hfourth
    rw [takeOutcome_of_settled now (acceptedOutcome_of_good hgood) hsettled,
      moveTimeState_of_settled (by simpa using hts) hfourth]
    exact ⟨rfl, rfl, rfl, rfl⟩
  case references =>
    have hsettled : ¬ Unsettled a := by
      rcases hts with ⟨hts, hphase⟩ | hts
      · exact not_unsettled_of_settling hts hphase
      · simp [Unsettled, hts]
    have hfourth := (fourth_outcomeCounted_iff now .reference grade o hsettled).mpr ⟨hgood, hthree⟩
    rw [outcomeCounted_of_settled now .reference grade o hsettled] at hfourth
    rw [takeOutcome_of_settled now (acceptedOutcome_of_good hgood) hsettled,
      moveTimeState_of_referenceSettled (by simpa using hts.imp_left And.left) hfourth]
    exact ⟨rfl, rfl⟩
  case enters =>
    have hunsettled : Unsettled a := hts.symm.imp_right fun ⟨h, hphase, _⟩ => ⟨h, hphase⟩
    rw [takeOutcome_of_unsettled now haccepted hunsettled]
    rcases hts with ⟨h, hphase, hgrade⟩ | h
    · simp [outcomeCounted, enterSettling_of_searching now h hphase, h, hgrade]
    · simp [outcomeCounted, enterSettling_of_selfTimed now h]
  case entersCounts =>
    obtain ⟨haccepted, hunsettled⟩ := henters
    simp [goodCount_takeOutcome_of_unsettled now grade haccepted hunsettled, hother]
  case timerTaken =>
    rw [takeOutcome_of_unsettled now haccepted (.inl hts), (outcomeCounted_rest now kind grade o a).2.2,
      enterSettling_of_selfTimed now hts]
  case holdover =>
    rw [takeOutcome_of_settled now haccepted (not_unsettled_of_timeState (by simp [hts]) (by simp [hts])),
      moveTimeState_of_holdover _ _ _ (by simpa using hts)]
    exact ⟨rfl, rfl, rfl⟩
  case settling =>
    have hsettled := not_unsettled_of_settling hts hphase
    have hfourth := mt (fourth_outcomeCounted_iff now kind grade o hsettled).mp hfew
    rw [outcomeCounted_of_settled now kind grade o hsettled] at hfourth
    rw [takeOutcome_of_settled now haccepted hsettled, moveTimeState_of_settling (by simpa using hts) hfourth]
    simp [hts]
  case agreed =>
    have hsettled : ¬ Unsettled a := not_unsettled_of_timeState (by simp [hts]) (by simp [hts])
    have hfourth : ¬ (kind = .reference ∧ Fourth kind o (outcomeCounted now kind grade o a)) := by
      rintro ⟨rfl, h⟩
      exact hfew ⟨rfl, (fourth_outcomeCounted_iff now .reference grade o hsettled).mp h⟩
    rw [outcomeCounted_of_settled now kind grade o hsettled] at hfourth
    rw [takeOutcome_of_settled now haccepted hsettled, moveTimeState_of_agreed (by simpa using hts) hfourth]
    simp [hts, agreedGrade]
  case referenced =>
    cases haccepted : acceptedOutcome o with
    | false => simp [takeOutcome, haccepted, hts]
    | true =>
      rw [takeOutcome_of_settled now haccepted (not_unsettled_of_timeState (by simp [hts]) (by simp [hts])),
        moveTimeState_of_referenced _ _ _ (by simpa using hts)]
      simp [hts]
  case step =>
    subst hstep
    have hzero (k : SourceKind) : goodCount k (takeOutcome now kind grade .step a) = 0 := by
      rw [goodCount_takeOutcome]
      cases k <;> rfl
    exact ⟨hzero .line, hzero .reference⟩
  case good =>
    rw [goodCount_takeOutcome_of_settled now kind kind grade hsettled,
      goodCount_takeOutcome_of_settled now kind (other kind) grade hsettled, goodCount_countOutcome_own,
      goodCount_countOutcome_other (hother kind), if_neg (hgood_ne hgood)]
    simp [countOwnKind, saturatingAdd, hgood]
  case slew =>
    subst hslew
    refine ⟨?_, fun hsettled => ?_⟩
    · rw [goodCount_takeOutcome, goodCount_countOutcome_own]
      rfl
    · rw [goodCount_takeOutcome_of_settled now kind (other kind) grade hsettled,
        goodCount_countOutcome_other (hother kind), if_neg (by simp)]
  case outlier =>
    subst houtlier
    rw [takeOutcome_of_outlier, goodCount_countOutcome_own, goodCount_countOutcome_other (hother kind)]
    simp [countOwnKind, goodOutcome]

end Sys2Proof.Machine

/-! # EDGE: bursts, the reference pulse and the proving contact (R66, R69 to R76, R178) -/

namespace Sys2Proof.Machine

/-! ## The proving contact (R178) -/

theorem noteProvingLevel_clocks (terminal : Fin 40) (old new : Bool) (s : State) (j : Fin 4) :
    (noteProvingLevel terminal old new s).clocks[j] =
      noteProving s.time.elapsed terminal old new s.port.image.lines[j] s.clocks[j] := by
  simp [noteProvingLevel]

/-- A level at the proving terminal of a line with a pulse in flight; half of the width is told in microseconds. -/
theorem noteProving_of_watched (now : Elapsed) (old new : Bool) {c : ClockConfig} {p : Pulse} {l : ClockLine}
    (hp : l.pulse = some p) :
    noteProving now c.proving old new (some c) l = { l with pulse := some { p with
      seenOn := p.seenOn || (new && decide (c.widthMs * 1000 / 2 ≤ elapsedSince now p.start)) ||
        (old && decide (c.widthMs * 1000 / 2 < elapsedSince now p.start)) } } := by
  have hhalf : c.widthMs * 1000 / 2 = c.widthMs * 500 := by omega
  simp [noteProving, hp, hhalf]

theorem noteProving_of_other {now : Elapsed} {terminal : Fin 40} {old new : Bool} {c : Option ClockConfig}
    {l : ClockLine} (h : c = none ∨ l.pulse = none ∨ ∃ d, c = some d ∧ d.proving ≠ terminal) :
    noteProving now terminal old new c l = l := by
  rcases h with rfl | h | ⟨d, rfl, hd⟩
  · rfl
  · cases c <;> simp [noteProving, h]
  · cases hp : l.pulse <;> simp [noteProving, hp, hd]

/-! ## The level alone (R69, R70, R178) -/

/-- The level put at a terminal, and noted of a pulse that is proven there. -/
def levelNoted (k : Fin 40) (level : Bool) (s : State) : State :=
  noteProvingLevel k s.pins.levels[k] level (putLevel k level s)

theorem levelNoted_eq (k : Fin 40) (level : Bool) (s : State) :
    levelNoted k level s = { s with
      pins := { s.pins with levels := s.pins.levels.set k level }, clocks := (levelNoted k level s).clocks } := rfl

theorem levelNoted_clocks (k : Fin 40) (level : Bool) (s : State) (j : Fin 4) :
    (levelNoted k level s).clocks[j] =
      noteProving s.time.elapsed k s.pins.levels[k] level s.port.image.lines[j] s.clocks[j] :=
  noteProvingLevel_clocks k _ level (putLevel k level s) j

/-- A level that stands at a terminal already. -/
theorem putLevel_levelNoted (k : Fin 40) (level : Bool) (s : State) :
    putLevel k level (levelNoted k level s) = levelNoted k level s := by
  rw [levelNoted_eq]
  simp [putLevel]

/-! ## What EDGE does -/

/-- A level in RUN that differs from the present level of an INPUT (R71). -/
def IsEdge (k : Fin 40) (level : Bool) (s : State) : Prop :=
  s.port.station = .run ∧ isInput s.port.image.terminals[k] = true ∧ level ≠ s.inputs[k].level

/-- A change from OFF to ON of the REFERENCE terminal in RUN (R66). -/
def GivesPulse (k : Fin 40) (level : Bool) (s : State) : Prop :=
  s.port.station = .run ∧ s.port.image.terminals[k] = .reference ∧ s.pins.levels[k] = false ∧ level = true

theorem isEdge_iff (k : Fin 40) (level : Bool) (s : State) :
    IsEdge k level s ↔ (inRun s && isInput s.port.image.terminals[k] && level != s.inputs[k].level) = true := by
  simp [IsEdge, inRun, and_assoc]

theorem givesPulse_iff (k : Fin 40) (level : Bool) (s : State) :
    GivesPulse k level s ↔ (inRun s && isPulse s.port.image.terminals[k] s.pins.levels[k] level) = true := by
  simp [GivesPulse, inRun, isPulse, and_assoc]

theorem takeLevel_of_edge {k : Fin 40} {level : Bool} {s : State} (h : IsEdge k level s) :
    takeLevel k level s = takeEdge k (settleUs s.port.image.terminals[k]) level (levelNoted k level s) :=
  if_pos ((isEdge_iff k level s).mp h)

theorem takeLevel_of_pulse {k : Fin 40} {level : Bool} {s : State} (h : GivesPulse k level s) :
    takeLevel k level s = meetPulse (levelNoted k level s) := by
  have hno : ¬ IsEdge k level s := by
    rintro ⟨-, hinput, -⟩
    simp [h.2.1, isInput] at hinput
  exact (if_neg (mt (isEdge_iff k level s).mpr hno)).trans (if_pos ((givesPulse_iff k level s).mp h))

theorem takeLevel_of_neither {k : Fin 40} {level : Bool} {s : State} (hedge : ¬ IsEdge k level s)
    (hpulse : ¬ GivesPulse k level s) : takeLevel k level s = levelNoted k level s :=
  (if_neg (mt (isEdge_iff k level s).mpr hedge)).trans (if_neg (mt (givesPulse_iff k level s).mpr hpulse))

/-! ## An edge at an INPUT (R73, R74, R76) -/

/-- The first edge opens a burst (R73). -/
theorem takeEdge_of_quiet {k : Fin 40} {settle : Nat} {level : Bool} {s : State} (h : s.inputs[k].burst = none) :
    takeEdge k settle level s = { s with inputs := s.inputs.set k { s.inputs[k] with
      level := level
      burst := some { stamp := stampNow s, start := s.time.elapsed, latest := s.time.elapsed, bounces := 0,
                      expiry := s.time.elapsed + usSpan settle } } } := by
  unfold takeEdge
  dsimp only
  rw [h]
  rfl

theorem chatters_iff (before after : Nat) : chatters before after = true ↔ before ≠ after ∧ after % 16 = 0 := by
  simp [chatters]

/-- An input whose burst a later edge extends (R74); from the sixteenth bounce on it is unstable (R76). -/
def inputExtended (now : Elapsed) (settle : Nat) (level : Bool) (b : Burst) (i : InputState) : InputState :=
  let count := bouncesAfter i.proven level b
  { i with
    level := level
    burst := some { b with latest := now, bounces := count, expiry := now + usSpan settle }
    unstable := i.unstable || (decide (b.bounces ≠ count) && decide (count = 16)) }

theorem takeEdge_of_burst {k : Fin 40} {settle : Nat} {level : Bool} {s : State} {b : Burst}
    (h : s.inputs[k].burst = some b) :
    takeEdge k settle level s =
      let extended := { s with inputs := s.inputs.set k (inputExtended s.time.elapsed settle level b s.inputs[k]) }
      let count := bouncesAfter s.inputs[k].proven level b
      if b.bounces ≠ count ∧ count % 16 = 0 then offerRecord (stampNow s) (.chatter k.val count) extended
      else extended := by
  have hunstable (count : Nat) : (chatters b.bounces count && decide (count = 16)) =
      (decide (b.bounces ≠ count) && decide (count = 16)) := by
    rw [Bool.eq_iff_iff]
    simp only [Bool.and_eq_true, chatters_iff, decide_eq_true_eq]
    omega
  unfold takeEdge
  dsimp only
  rw [h]
  dsimp only
  rw [hunstable]
  simp only [chatters_iff]
  rfl

/-- Settles O35: the pin and the proving contact, then each role's own effect. -/
theorem edgesOpenAndExtendBursts : Obligations.EdgesOpenAndExtendBursts := by
  intro s k level stamp
  have hexec {t : State} (h : takeLevel k level s = t) : exec (.edge k level) s = .next t := congrArg _ h
  refine ⟨levelNoted k level s, levelNoted_eq k level s, fun j c p hc hp hproving => ?watched, fun j h => ?unwatched,
    fun h => hexec ?unaffected, fun hrole h => hexec ?noPulse, fun hs hk hlevel hoff => ?pulse,
    fun settleMs cls priority hrole => ⟨fun hlevel => hexec ?noEdge, fun hs hlevel hquiet => hexec ?opens,
      fun b hs hlevel hburst => ?extended⟩⟩
  case watched =>
    rw [levelNoted_clocks, hc, ← hproving]
    exact noteProving_of_watched _ _ _ hp
  case unwatched =>
    rw [levelNoted_clocks]
    exact noteProving_of_other h
  case unaffected =>
    refine takeLevel_of_neither (fun hedge => ?_) (fun hpulse => ?_)
    · obtain ⟨hrun, hinput, -⟩ := hedge
      rcases h with hs | hrole | hrole | hrole
      · exact hs hrun
      all_goals simp [hrole, isInput] at hinput
    · obtain ⟨hrun, hreference, -, -⟩ := hpulse
      rcases h with hs | hrole | hrole | hrole
      · exact hs hrun
      all_goals simp [hrole] at hreference
  case noPulse =>
    refine takeLevel_of_neither (fun hedge => ?_) (fun hpulse => ?_)
    · obtain ⟨-, hinput, -⟩ := hedge
      simp [hrole, isInput] at hinput
    · obtain ⟨-, -, hoff, hon⟩ := hpulse
      simp [hoff, hon] at h
  case pulse =>
    subst hlevel
    have hrun : inRun (levelNoted k true s) = true := by simp [levelNoted, inRun, hs]
    rw [hexec (takeLevel_of_pulse ⟨hs, terminal_of_referenceTerminal hk, hoff, rfl⟩),
      exec_referencePulse (s := levelNoted k true s) hk, if_pos hrun, putLevel_levelNoted]
  case noEdge =>
    refine takeLevel_of_neither (fun ⟨_, _, hdiffers⟩ => hdiffers hlevel) (fun ⟨_, hreference, _, _⟩ => ?_)
    simp [hrole] at hreference
  case opens =>
    have hedge : IsEdge k level s := ⟨hs, by simp [hrole, isInput], hlevel⟩
    rw [takeLevel_of_edge hedge, takeEdge_of_quiet (s := levelNoted k level s) hquiet, hrole]
    rfl
  case extended =>
    have hedge := (takeLevel_of_edge ⟨hs, by simp [hrole, isInput], hlevel⟩).trans
      (takeEdge_of_burst (s := levelNoted k level s) hburst)
    rw [hrole] at hedge
    exact ⟨fun hchanged hsixteen => hexec (hedge.trans (if_pos ⟨hchanged, hsixteen⟩)),
      fun hfew => hexec (hedge.trans (if_neg (by rwa [not_and_or, not_not])))⟩

end Sys2Proof.Machine

/-! # Disturbances, and the movement pairs (R75, R76, R81, R86 to R92) -/

namespace Sys2Proof.Machine

/-! ## A burst that settles at the proven state (R75, R76) -/

theorem settleDue_of_burst {s : State} {k : Fin 40} {b : Burst} (h : s.inputs[k].burst = some b) :
    settleDue s k = (inRun s && isInput s.port.image.terminals[k] && reached s.time.elapsed b.expiry) := by
  simp only [settleDue, h]

theorem exec_settleExpiry_of_quiet {s : State} {k : Fin 40} (h : s.inputs[k].burst = none) :
    exec (.settleExpiry k) s = .next s := by
  simp only [exec, execSettleExpiry, h]

theorem exec_settleExpiry_of_burst {s : State} {k : Fin 40} {b : Burst} (h : s.inputs[k].burst = some b) :
    exec (.settleExpiry k) s = .next (if settleDue s k then settle k b s else s) := by
  simp only [exec, execSettleExpiry, h]

/-- An input whose burst is closed with its proven state kept, no longer unstable (R75, R76). -/
def burstClosed (k : Fin 40) (s : State) : State :=
  { s with inputs := s.inputs.set k { s.inputs[k] with burst := none, unstable := false } }

/-- The disturbance of R75: an unstable input offers its closing CHATTER record (R76). -/
theorem settle_of_disturbance {s : State} {k : Fin 40} {b : Burst} (h : s.inputs[k].proven = some s.inputs[k].level) :
    settle k b s = if s.inputs[k].unstable = true
      then offerRecordNow (.chatter k.val b.bounces) (burstClosed k s) else burstClosed k s :=
  if_pos h

/-- Settles O36: without a burst and before its expiry the command does nothing; at the expiry the burst is a
disturbance. -/
theorem disturbanceClosesTheBurst : Obligations.DisturbanceClosesTheBurst := by
  intro s k hs hk
  refine ⟨exec_settleExpiry_of_quiet, fun b hb => ?_⟩
  have hdue : settleDue s k = reached s.time.elapsed b.expiry := by
    rw [settleDue_of_burst hb, hk]
    simp [inRun, hs]
  have hexec := exec_settleExpiry_of_burst hb
  rw [hdue] at hexec
  refine ⟨fun hbefore => ?early, fun hexpiry hproven => ?disturbance⟩
  case early => rw [hexec, hbefore, if_neg Bool.false_ne_true]
  case disturbance =>
    rw [hexec, if_pos hexpiry, settle_of_disturbance hproven]
    rfl

/-! ## The limit of a pair (R86, R89) -/

theorem exec_limitExpiry_of_due {s : State} {k : Fin 8} (h : limitDue s k = true) :
    exec (.limitExpiry k) s = .next (takeLimit s k) := congrArg _ (if_pos h)

theorem exec_limitExpiry_of_not_due {s : State} {k : Fin 8} (h : ¬ limitDue s k = true) :
    exec (.limitExpiry k) s = .next s := congrArg _ (if_neg h)

/-- Only a pair in MOVING has a limit to reach (R89). -/
theorem limitDue_iff (s : State) (k : Fin 8) : limitDue s k = true ↔ s.port.station = .run ∧
    ∃ m expiry, s.pairs[k] = .moving m expiry ∧ reached s.time.elapsed expiry = true := by
  cases hp : s.pairs[k] with
  | idle => simp [limitDue, limitReached, hp]
  | moving m expiry => simp [limitDue, limitReached, inRun, hp]
  | overdue m => simp [limitDue, limitReached, hp]

/-- A pair goes past its limit: OVERTIME with this date and no duration, and its start kept (R89, R92). -/
theorem takeLimit_of_moving {s : State} {k : Fin 8} {m : MovementStart} {expiry : Elapsed}
    (h : s.pairs[k] = .moving m expiry) :
    takeLimit s k = { offerRecord (stampNow s) (movementBody k .overtime m none) s with
      pairs := s.pairs.set k (.overdue m) } := by
  have hpairs : (offerRecordNow (movementBody k .overtime m none) s).pairs = s.pairs := by simp
  simp only [takeLimit, h, putPair, hpairs]
  rfl

/-! ## The signals of a pair (R87, R88, R90 to R92) -/

/-- The record of a signal that closes a movement, and the pair's next state (R92). -/
theorem closeMovement_eq (k : Fin 8) (v : Verdict) (m : MovementStart) (g : Signal) (next : PairState) (s : State) :
    closeMovement k v m g next s =
      { offerRecord g.stamp (movementBody k v m (some (elapsedSince g.elapsed m.elapsed))) s with
        pairs := s.pairs.set k next } := by
  have hpairs (body : EventBody) : (offerRecord g.stamp body s).pairs = s.pairs := by simp
  simp only [closeMovement, putPair, hpairs]

theorem notEarlier_iff (g : Signal) (m : MovementStart) :
    notEarlier g m = true ↔ elapsedSince g.elapsed m.elapsed < 2 ^ 47 := decide_eq_true_iff

theorem takeSignal_of_off {k : Fin 8} {c : PairConfig} {g : Signal} {s : State} (h : g.on = false) :
    takeSignal k c g s = s := by
  simp [takeSignal, h]

/-- In IDLE a DRIVE ON signal starts a movement, and a DETECTION ON signal does nothing (R87). -/
theorem takeSignal_of_idle {k : Fin 8} {c : PairConfig} {g : Signal} {s : State} (hon : g.on = true)
    (h : s.pairs[k] = .idle) :
    takeSignal k c g s = if g.drive = true then putPair k (movingFrom c g) s else s := by
  cases hd : g.drive <;> simp [takeSignal, hon, h, hd]

/-- A movement underway: its start, and the verdict of the detection that ends it (R88, R90). -/
def underway : PairState → Option (MovementStart × Verdict)
  | .idle => none
  | .moving m _ => some (m, .normal)
  | .overdue m => some (m, .lateEnd)

/-- What an ON signal does to a movement underway: a DRIVE closes it with RESTARTED and starts the next, a DETECTION
not earlier than the start closes it with the verdict of its state (R88, R90, R91). -/
theorem takeSignal_of_underway {k : Fin 8} {c : PairConfig} {g : Signal} {s : State} {m : MovementStart} {v : Verdict}
    (hon : g.on = true) (h : underway s.pairs[k] = some (m, v)) :
    takeSignal k c g s = if g.drive = true then closeMovement k .restarted m g (movingFrom c g) s
      else if notEarlier g m = true then closeMovement k v m g .idle s else s := by
  cases hp : s.pairs[k] with
  | idle => simp [hp, underway] at h
  | moving m' expiry =>
    obtain ⟨rfl, rfl⟩ : m' = m ∧ Verdict.normal = v := by simpa [hp, underway] using h
    cases hd : g.drive <;> simp [takeSignal, hon, hp, hd]
  | overdue m' =>
    obtain ⟨rfl, rfl⟩ : m' = m ∧ Verdict.lateEnd = v := by simpa [hp, underway] using h
    cases hd : g.drive <;> simp [takeSignal, hon, hp, hd]

theorem takeSignal_of_drive {k : Fin 8} {c : PairConfig} {g : Signal} {s : State} {m : MovementStart} {v : Verdict}
    (hon : g.on = true) (h : underway s.pairs[k] = some (m, v)) (hdrive : g.drive = true) :
    takeSignal k c g s = closeMovement k .restarted m g (movingFrom c g) s :=
  (takeSignal_of_underway hon h).trans (if_pos hdrive)

theorem takeSignal_of_detection {k : Fin 8} {c : PairConfig} {g : Signal} {s : State} {m : MovementStart} {v : Verdict}
    (hon : g.on = true) (h : underway s.pairs[k] = some (m, v)) (hdrive : g.drive = false) :
    takeSignal k c g s = if notEarlier g m = true then closeMovement k v m g .idle s else s :=
  (takeSignal_of_underway hon h).trans (if_neg (by simp [hdrive]))

/-- The rows of section 5.3 for a movement underway, whether MOVING or OVERDUE. -/
theorem takeSignal_rows_of_underway {k : Fin 8} {c : PairConfig} {g : Signal} {s : State} {m : MovementStart}
    {v : Verdict} (hon : g.on = true) (h : underway s.pairs[k] = some (m, v)) :
    let closed (v : Verdict) (next : PairState) : State :=
      { offerRecord g.stamp (movementBody k v m (some (elapsedSince g.elapsed m.elapsed))) s with
        pairs := s.pairs.set k next }
    (g.drive = true → takeSignal k c g s = closed .restarted (movingFrom c g)) ∧
    (g.drive = false → elapsedSince g.elapsed m.elapsed < 2 ^ 47 → takeSignal k c g s = closed v .idle) ∧
    (g.drive = false → 2 ^ 47 ≤ elapsedSince g.elapsed m.elapsed → takeSignal k c g s = s) := by
  refine ⟨fun hdrive => ?restarted, fun hdrive hlater => ?ended, fun hdrive hearlier => ?earlier⟩
  case restarted => rw [takeSignal_of_drive hon h hdrive, closeMovement_eq]
  case ended => rw [takeSignal_of_detection hon h hdrive, if_pos ((notEarlier_iff g m).mpr hlater), closeMovement_eq]
  case earlier =>
    rw [takeSignal_of_detection hon h hdrive, if_neg (mt (notEarlier_iff g m).mp (Nat.not_lt.mpr hearlier))]

/-- Settles O38: the limit, then the rows of the table by the state of the pair. -/
theorem movementPairsFollowTheirTable : Obligations.MovementPairsFollowTheirTable := by
  intro s k c g
  refine ⟨fun m expiry hp hs hexpiry => ?limit, fun hbefore => ?noLimit, takeSignal_of_off,
    fun hon hdrive hp => ?started, fun hon hdrive hp => ?noMovement,
    fun m expiry hon hp => takeSignal_rows_of_underway hon (congrArg underway hp),
    fun m hon hp => takeSignal_rows_of_underway hon (congrArg underway hp)⟩
  case limit =>
    rw [exec_limitExpiry_of_due ((limitDue_iff s k).mpr ⟨hs, m, expiry, hp, hexpiry⟩), takeLimit_of_moving hp]
    rfl
  case noLimit =>
    refine exec_limitExpiry_of_not_due fun hdue => ?_
    obtain ⟨-, m, expiry, hp, hexpiry⟩ := (limitDue_iff s k).mp hdue
    exact Bool.false_ne_true ((hbefore m expiry hp).symm.trans hexpiry)
  case started =>
    rw [takeSignal_of_idle hon hp, if_pos hdrive]
    rfl
  case noMovement => rw [takeSignal_of_idle hon hp, if_neg (by simp [hdrive])]

end Sys2Proof.Machine

/-! # What every command does to the event queue (chapter 6)

Every step changes the queue by offers, reports, removals and resets alone. These moves are listed here once, and what
every step keeps of the queue is proved for each move once. -/

namespace Sys2Proof.Machine

open Relation (ReflTransGen)

/-! ## The GAP record owed, and an offer (R98 to R102) -/

theorem admitGap_of_none (now : Stamp) {q : EventQueue} (h : q.lost = none) : admitGap now q = q := by
  simp [admitGap, h]

theorem admitGap_of_full (now : Stamp) {q : EventQueue} (h : 512 ≤ q.records.length) : admitGap now q = q := by
  unfold admitGap
  split
  · exact if_neg (Nat.not_lt.mpr h)
  · rfl

theorem admitGap_of_room (now : Stamp) {q : EventQueue} {l : LostRun} (h : q.lost = some l)
    (hroom : q.records.length < 512) :
    admitGap now q = { q with
      records := q.records ++ [{ seq := q.nextSeq, stamp := now, body := .gap l.tally l.first l.last }]
      nextSeq := q.nextSeq + 1, lost := none } := by
  simp [admitGap, admitRecord, h, hroom]

/-- The queue after a record that finds no place, before the GAP record that accounts for it (R101). -/
def lossCounted (d : DatedEpoch) (q : EventQueue) : EventQueue :=
  { q with nextSeq := q.nextSeq + 1, lost := some (countLoss d q.lost) }

theorem lossCounted_of_none (d : DatedEpoch) {q : EventQueue} (h : q.lost = none) :
    lossCounted d q = { q with nextSeq := q.nextSeq + 1, lost := some { tally := 1, first := d, last := d } } := by
  simp [lossCounted, countLoss, h]

theorem lossCounted_of_owed (d : DatedEpoch) {q : EventQueue} {l : LostRun} (h : q.lost = some l) :
    lossCounted d q = { q with
      nextSeq := q.nextSeq + 1
      lost := some { tally := min 65535 (l.tally + 1), first := l.first, last := d } } := by
  simp [lossCounted, countLoss, saturatingAdd, h]

/-- A first loss that leaves a place is accounted for at once (R102). -/
theorem admitGap_lossCounted_of_room (now : Stamp) (d : DatedEpoch) {q : EventQueue} (h : q.lost = none)
    (hroom : q.records.length < 512) :
    admitGap now (lossCounted d q) = { q with
      records := q.records ++ [{ seq := q.nextSeq + 1, stamp := now, body := .gap 1 d d }]
      nextSeq := q.nextSeq + 2 } := by
  simp [lossCounted_of_none d h, admitGap, admitRecord, h, hroom, BitVec.add_assoc]

/-- A loss that leaves no place waits in the tally (R102). -/
theorem admitGap_lossCounted_of_full (now : Stamp) (d : DatedEpoch) {q : EventQueue} (h : 512 ≤ q.records.length) :
    admitGap now (lossCounted d q) = lossCounted d q := admitGap_of_full now h

theorem offerToQueue_eq (now stamp : Stamp) (body : EventBody) (q : EventQueue) :
    offerToQueue now stamp body q =
      if hasRoom body (admitGap now q).records.length = true then (admitRecord stamp body (admitGap now q), false)
      else (admitGap now (lossCounted (stampEpoch stamp) (admitGap now q)), true) := rfl

theorem offerRecord_events (stamp : Stamp) (body : EventBody) (s : State) :
    (offerRecord stamp body s).events = (offerToQueue (stampNow s) stamp body s.events).1 := by
  unfold offerRecord
  dsimp only
  split_ifs <;> simp

/-- With no GAP record to be admitted first, a record with room is the newest, and nothing else changes (R98, R100). -/
theorem offerRecord_of_admitted {stamp : Stamp} {body : EventBody} {s : State}
    (hgap : admitGap (stampNow s) s.events = s.events) (hroom : hasRoom body s.events.records.length = true) :
    offerRecord stamp body s = { s with events := admitRecord stamp body s.events } := by
  simp [offerRecord, offerToQueue_eq, hgap, hroom]

/-- With no GAP record to be admitted first, a record without room is lost (R101, R102). -/
theorem offerRecord_of_lost {stamp : Stamp} {body : EventBody} {s : State}
    (hgap : admitGap (stampNow s) s.events = s.events) (hroom : ¬ hasRoom body s.events.records.length = true) :
    offerRecord stamp body s = raiseUrgent .eventLoss (presentDate s)
      { s with events := admitGap (stampNow s) (lossCounted (stampEpoch stamp) s.events) } := by
  simp only [offerRecord, offerToQueue_eq, hgap, if_neg hroom, if_true]
  rfl

/-! ## The moves keep the queue legal (R97, R100 to R102, R107, R109) -/

/-- One change of the event queue: a record offered, the answer to a notice reported, the oldest records removed, or the
reset of POWER_ON and RESTART. -/
inductive EventMove (q : EventQueue) : EventQueue → Prop
  | offered (now stamp : Stamp) (body : EventBody) : EventMove q (offerToQueue now stamp body q).1
  | reported (b : Broadcast) (n : SeqNumber) : EventMove q { q with records := writeBroadcast b n q.records }
  | removed (now : Stamp) (n : Nat) : EventMove q (removeOldest now n q)
  | reset (cause : ResetCause) : EventMove q (eventQueueReset cause)

/-- A lost tally in its range (R97, R101). -/
def TallyLegal (lost : Option LostRun) : Prop := ∀ l, lost = some l → 1 ≤ l.tally ∧ l.tally ≤ 65535

theorem EventQueueLegal.tally {q : EventQueue} (h : EventQueueLegal q) : TallyLegal q.lost := fun l hl => (h.2 l hl).2

/-- Whatever the occupancy, the GAP record owed is admitted or the queue is full (R102). -/
theorem admitGap_legal (now : Stamp) {q : EventQueue} (hlength : q.records.length ≤ 512)
    (htally : TallyLegal q.lost) : EventQueueLegal (admitGap now q) := by
  cases hl : q.lost with
  | none =>
    rw [admitGap_of_none now hl]
    exact ⟨hlength, by simp [hl]⟩
  | some l =>
    by_cases hroom : q.records.length < 512
    · rw [admitGap_of_room now hl hroom]
      exact ⟨by simpa using hroom, by simp⟩
    · rw [admitGap_of_full now (Nat.le_of_not_lt hroom)]
      exact ⟨hlength, fun l' hl' => ⟨by omega, htally l' hl'⟩⟩

theorem countLoss_legal (d : DatedEpoch) {lost : Option LostRun} (h : TallyLegal lost) :
    TallyLegal (some (countLoss d lost)) := by
  rintro _ ⟨⟩
  cases lost with
  | none => simp [countLoss]
  | some l =>
    have hl := h l rfl
    simp only [countLoss, saturatingAdd]
    omega

theorem admitRecord_legal (stamp : Stamp) {body : EventBody} {q : EventQueue} (h : EventQueueLegal q)
    (hroom : hasRoom body q.records.length = true) : EventQueueLegal (admitRecord stamp body q) := by
  have hlt : q.records.length < 512 := by
    rcases (hasRoom_iff _ _).mp hroom with hlow | ⟨hlow, -⟩ <;> omega
  refine ⟨by simpa [admitRecord] using hlt, fun l hl => ?_⟩
  obtain ⟨hfull, -⟩ := h.2 l hl
  omega

theorem offerToQueue_legal (now stamp : Stamp) (body : EventBody) {q : EventQueue} (h : EventQueueLegal q) :
    EventQueueLegal (offerToQueue now stamp body q).1 := by
  have hgap : EventQueueLegal (admitGap now q) := admitGap_legal now h.1 h.tally
  rw [offerToQueue_eq]
  split_ifs with hroom
  · exact admitRecord_legal stamp hgap hroom
  · exact admitGap_legal now hgap.1 (countLoss_legal _ hgap.tally)

theorem EventMove.legal {q r : EventQueue} (m : EventMove q r) (h : EventQueueLegal q) : EventQueueLegal r := by
  cases m with
  | offered now stamp body => exact offerToQueue_legal now stamp body h
  | reported b n => exact ⟨by simpa using h.1, by simpa using h.2⟩
  | removed now n =>
    have hlength : (q.records.drop n).length ≤ 512 := (List.drop_sublist n _).length_le.trans h.1
    exact admitGap_legal now hlength h.tally
  | reset cause => exact ⟨by simp [eventQueueReset], by simp [eventQueueReset]⟩

theorem eventMoves_legal {q r : EventQueue} (m : ReflTransGen EventMove q r) (h : EventQueueLegal q) :
    EventQueueLegal r := by
  induction m with
  | refl => exact h
  | tail _ last ih => exact last.legal ih

/-! ## The offer, by class and occupancy -/

/-- Settles O39: by the room of R100, then whether the GAP record owed finds a place (R102). -/
theorem offeredRecordsAreAdmittedOrAccounted : Obligations.OfferedRecordsAreAdmittedOrAccounted := by
  intro s stamp body hlength n fits d lossRaised
  have hfits : hasRoom body s.events.records.length = true ↔ fits := by
    rw [hasRoom_iff]
    change _ ↔ (if isFieldClass body = true then n < 508 else n < 512)
    cases isFieldClass body
    · simp; omega
    · simp [n]
  have hfull : n = 512 → ¬ hasRoom body s.events.records.length = true := by
    intro hn hroom
    rcases (hasRoom_iff _ _).mp hroom with hlow | ⟨hlow, -⟩ <;> omega
  refine ⟨fun hnone hroom => ?_, fun hnone hroom hlow => ?_, fun hnone hn => ?_, fun l hl hn => ?_⟩
  · exact offerRecord_of_admitted (admitGap_of_none _ hnone) (hfits.mpr hroom)
  · rw [offerRecord_of_lost (admitGap_of_none _ hnone) (mt hfits.mp hroom),
      admitGap_lossCounted_of_room _ _ hnone hlow]
    rfl
  · rw [offerRecord_of_lost (admitGap_of_none _ hnone) (hfull hn), admitGap_lossCounted_of_full _ _ hn.ge,
      lossCounted_of_none _ hnone]
    rfl
  · rw [offerRecord_of_lost (admitGap_of_full _ hn.ge) (hfull hn), admitGap_lossCounted_of_full _ _ hn.ge,
      lossCounted_of_owed _ hl]
    rfl

/-! ## The operations of the blocks as moves -/

/-- The event queue of `t` comes from that of `s` by moves. -/
def EventsEvolve (s t : State) : Prop := ReflTransGen EventMove s.events t.events

theorem EventsEvolve.refl (s : State) : EventsEvolve s s := ReflTransGen.refl

theorem EventsEvolve.trans {s t u : State} (hst : EventsEvolve s t) (htu : EventsEvolve t u) : EventsEvolve s u :=
  ReflTransGen.trans hst htu

theorem EventsEvolve.of_kept {s t : State} (h : t.events = s.events) : EventsEvolve s t := by
  unfold EventsEvolve
  rw [h]

/-- Moves made after, and before, a change of other blocks. -/
theorem EventsEvolve.after_kept {s t u : State} (h : EventsEvolve t u) (hkept : t.events = s.events) :
    EventsEvolve s u := (EventsEvolve.of_kept hkept).trans h

theorem EventsEvolve.then_kept {s t u : State} (h : EventsEvolve s t) (hkept : u.events = t.events) :
    EventsEvolve s u := h.trans (.of_kept hkept)

theorem EventsEvolve.foldl {α : Type} {f : State → α → State} (hf : ∀ s a, EventsEvolve s (f s a)) (l : List α)
    (s : State) : EventsEvolve s (l.foldl f s) := by
  induction l generalizing s with
  | nil => exact .refl s
  | cons a rest ih => exact (hf s a).trans (ih _)

theorem offerRecord_eventsEvolve (stamp : Stamp) (body : EventBody) (s : State) :
    EventsEvolve s (offerRecord stamp body s) := by
  unfold EventsEvolve
  rw [offerRecord_events]
  exact .single (.offered _ stamp body)

theorem offerRecordNow_eventsEvolve (body : EventBody) (s : State) : EventsEvolve s (offerRecordNow body s) :=
  offerRecord_eventsEvolve _ body s

theorem reportBroadcast_eventsEvolve (b : Broadcast) (n : SeqNumber) (s : State) :
    EventsEvolve s (reportBroadcast b n s) := .single (.reported b n)

/-! ### Offsets and marks (R19, R38) -/

theorem announceStep_eventsEvolve (old : Date) (ts : TimeState) (s : State) :
    EventsEvolve s (announceStep old ts s) := by
  have hoffered := offerRecord_eventsEvolve { date := s.time.date, epoch := s.time.epoch, timeState := ts }
    (.timeStep old s.time.date) s
  unfold announceStep
  dsimp only
  split_ifs
  · exact hoffered.trans (.of_kept (by simp))
  · exact hoffered

theorem discipline_eventsEvolve (d : Int) (s : State) : EventsEvolve s (discipline d s).2 := by
  unfold discipline
  dsimp only
  split_ifs
  · exact (announceStep_eventsEvolve _ _ _).after_kept rfl
  · exact .refl s

theorem giveOffset_eventsEvolve (kind : SourceKind) (grade : Nat) (d : Int) (s : State) :
    EventsEvolve s (giveOffset kind grade d s) :=
  (discipline_eventsEvolve d s).trans (.of_kept (by simp [giveOffset]))

theorem takePulse_eventsEvolve (expected : Date) (a : Arming) (s : State) :
    EventsEvolve s (takePulse expected a s) :=
  EventsEvolve.trans (.of_kept (by simp)) (giveOffset_eventsEvolve .reference 1 _ _)

theorem meetPulse_eventsEvolve (s : State) : EventsEvolve s (meetPulse s) := by
  unfold meetPulse
  split
  · split
    · exact takePulse_eventsEvolve _ _ s
    · exact .refl s
  · exact .refl s

/-! ### Scores and frames (R34 to R38, R42, R43) -/

theorem reportDropped_eventsEvolve (items : List TxItem) (s : State) : EventsEvolve s (reportDropped items s) := by
  refine EventsEvolve.foldl (fun u it => ?_) items s
  split
  · exact reportBroadcast_eventsEvolve _ _ u
  · exact .refl u

theorem enterWithdrawn_eventsEvolve (s : State) : EventsEvolve s (enterWithdrawn s) :=
  (reportDropped_eventsEvolve s.line.txQueue s).trans (.of_kept (by simp [enterWithdrawn]))

theorem takeScore_eventsEvolve (score : Nat) (s : State) : EventsEvolve s (takeScore score s) := by
  unfold takeScore
  dsimp only
  split_ifs
  · exact (enterWithdrawn_eventsEvolve _).after_kept rfl
  · exact .refl s

theorem duplicateStation_eventsEvolve (s : State) : EventsEvolve s (duplicateStation s) := by
  have hraised : EventsEvolve s (raiseUrgentNow .duplicateStation s) := .of_kept (by simp)
  unfold duplicateStation
  dsimp only
  split_ifs
  · exact hraised
  · exact (enterWithdrawn_eventsEvolve _).after_kept (by simp)

theorem scoreOwnFrame_eventsEvolve (how : FrameEnd) (s : State) : EventsEvolve s (scoreOwnFrame how s) := by
  cases how with
  | lost => exact .refl s
  | completed =>
    simp only [scoreOwnFrame]
    split_ifs
    · exact .refl s
    · exact (takeScore_eventsEvolve _ _).after_kept rfl
  | objected =>
    simp only [scoreOwnFrame]
    split_ifs
    · exact .refl s
    · exact (takeScore_eventsEvolve _ _).after_kept rfl
  | collided =>
    simp only [scoreOwnFrame]
    split_ifs
    · exact (duplicateStation_eventsEvolve _).after_kept rfl
    · exact .refl s
    · exact (takeScore_eventsEvolve _ _).after_kept rfl

theorem scoreGoodFrame_eventsEvolve (own remainder : Bool) (s : State) :
    EventsEvolve s (scoreGoodFrame own remainder s) := by
  unfold scoreGoodFrame
  dsimp only
  split_ifs
  · exact duplicateStation_eventsEvolve s
  · exact .refl s
  · exact .of_kept (by simp)
  · exact takeScore_eventsEvolve _ s

theorem scoreBadFrame_eventsEvolve (remainder : Bool) (s : State) : EventsEvolve s (scoreBadFrame remainder s) := by
  unfold scoreBadFrame
  split_ifs
  · exact .refl s
  · exact .refl s
  · exact takeScore_eventsEvolve _ s

theorem endGoodFrame_eventsEvolve (origin : BitVec 6) (s : State) : EventsEvolve s (endGoodFrame origin s) := by
  unfold endGoodFrame
  dsimp only
  split_ifs
  · exact (scoreGoodFrame_eventsEvolve _ _ _).after_kept rfl
  · exact .refl s

theorem endBadFrame_eventsEvolve (why : BadFrame) (s : State) : EventsEvolve s (endBadFrame why s) := by
  unfold endBadFrame
  dsimp only
  split_ifs
  · exact (scoreBadFrame_eventsEvolve _ _).after_kept rfl
  · exact .refl s

theorem frameEnds_eventsEvolve {isTime checkAgrees : Bool} {good : State → State} {s : State}
    (h : EventsEvolve s (good s)) : EventsEvolve s (frameEnds isTime checkAgrees good s) := by
  unfold frameEnds
  split_ifs
  · exact h
  · exact endBadFrame_eventsEvolve _ s
  · exact endBadFrame_eventsEvolve _ s
  · exact .refl s

theorem settleItem_eventsEvolve (how : FrameEnd) (order : Nat) (s : State) :
    EventsEvolve s (settleItem how order s) := by
  unfold settleItem
  dsimp only
  split
  · exact (reportBroadcast_eventsEvolve _ _ _).after_kept rfl
  · exact .refl s

theorem ownerTakes_eventsEvolve (how : FrameEnd) (o : FrameOwner) (s : State) :
    EventsEvolve s (ownerTakes how o s) := by
  cases o with
  | queueItem order => exact settleItem_eventsEvolve how order s
  | agreement => exact .refl s
  | noBlock => exact .refl s

theorem endOwnFrame_eventsEvolve (how : FrameEnd) (f : OwnFrame) (s : State) :
    EventsEvolve s (endOwnFrame how f s) := by
  unfold endOwnFrame
  dsimp only
  split_ifs
  · exact ((ownerTakes_eventsEvolve how f.owner _).trans (scoreOwnFrame_eventsEvolve how _)).after_kept rfl
  · exact .refl s

theorem hearTimeFrame_eventsEvolve (f : TimeFrame) (capture : Option Stamp) (s : State) :
    EventsEvolve s (hearTimeFrame f capture s) := by
  unfold hearTimeFrame
  dsimp only
  split
  · split_ifs
    · exact EventsEvolve.trans (.of_kept (by simp)) (giveOffset_eventsEvolve .line _ _ _)
    · exact .of_kept (by simp)
    · exact .refl s
  · exact .refl s

theorem endTimeFrame_eventsEvolve (f : TimeFrame) (s : State) : EventsEvolve s (endTimeFrame f s) := by
  have hend := endGoodFrame_eventsEvolve f.origin s
  unfold endTimeFrame
  dsimp only
  split_ifs
  · refine hend.trans (EventsEvolve.trans ?_ (hearTimeFrame_eventsEvolve f _ _))
    split
    · exact .of_kept (by simp)
    · exact .refl _
  · exact hend

theorem endNotice_eventsEvolve (f : NoticeFrame) (s : State) : EventsEvolve s (endNotice f s) := by
  have hend := endGoodFrame_eventsEvolve f.origin s
  unfold endNotice
  dsimp only
  split
  · split_ifs
    · exact hend.trans (.of_kept (by simp))
    · exact hend
  · exact hend

theorem endPresence_eventsEvolve (f : PresenceFrame) (s : State) : EventsEvolve s (endPresence f s) := by
  have hend := endGoodFrame_eventsEvolve f.origin s
  unfold endPresence
  dsimp only
  split
  · split_ifs
    · exact hend.trans (.of_kept (by simp))
    · exact hend
  · exact hend

/-! ### Field terminals and movement pairs (R72, R76 to R79, R87 to R92) -/

theorem takeEdge_eventsEvolve (t : Fin 40) (settle : Nat) (level : Bool) (s : State) :
    EventsEvolve s (takeEdge t settle level s) := by
  unfold takeEdge
  dsimp only
  split
  · exact .of_kept (by simp)
  · split_ifs
    · exact EventsEvolve.trans (.of_kept (by simp)) (offerRecordNow_eventsEvolve _ _)
    · exact .of_kept (by simp)

theorem takeLevel_eventsEvolve (t : Fin 40) (level : Bool) (s : State) : EventsEvolve s (takeLevel t level s) := by
  have hnoted : EventsEvolve s (noteProvingLevel t s.pins.levels[t] level (putLevel t level s)) := .of_kept (by simp)
  unfold takeLevel
  dsimp only
  split_ifs
  · exact hnoted.trans (takeEdge_eventsEvolve t _ level _)
  · exact hnoted.trans (meetPulse_eventsEvolve _)
  · exact hnoted

theorem closeMovement_eventsEvolve (k : Fin 8) (v : Verdict) (m : MovementStart) (g : Signal) (next : PairState)
    (s : State) : EventsEvolve s (closeMovement k v m g next s) :=
  (offerRecord_eventsEvolve g.stamp _ s).then_kept rfl

theorem takeSignal_eventsEvolve (k : Fin 8) (c : PairConfig) (g : Signal) (s : State) :
    EventsEvolve s (takeSignal k c g s) := by
  unfold takeSignal
  split
  · exact .refl s
  · split
    · exact .of_kept (by simp)
    · exact .refl s
    · exact closeMovement_eventsEvolve k _ _ g _ s
    · exact closeMovement_eventsEvolve k _ _ g _ s
    · split_ifs
      · exact closeMovement_eventsEvolve k _ _ g _ s
      · exact .refl s
    · split_ifs
      · exact closeMovement_eventsEvolve k _ _ g _ s
      · exact .refl s

theorem signalPair_eventsEvolve (t : Fin 40) (on : Bool) (b : Burst) (s : State) (k : Fin 8) :
    EventsEvolve s (signalPair t on b s k) := by
  unfold signalPair
  split
  · next c _ =>
    have hsignal (g : Signal) (terminal : Fin 40) (u : State) :
        EventsEvolve u (if terminal = t then takeSignal k c g u else u) := by
      split_ifs
      · exact takeSignal_eventsEvolve k c g u
      · exact .refl u
    exact (hsignal _ c.drive s).trans (hsignal _ c.detection _)
  · exact .refl s

theorem takeLimit_eventsEvolve (s : State) (k : Fin 8) : EventsEvolve s (takeLimit s k) := by
  unfold takeLimit
  split
  · exact (offerRecordNow_eventsEvolve _ s).then_kept rfl
  · exact .refl s
  · exact .refl s

theorem takeUsedLimit_eventsEvolve (t : Fin 40) (on : Bool) (s : State) (k : Fin 8) :
    EventsEvolve s (takeUsedLimit t on s k) := by
  unfold takeUsedLimit
  split_ifs
  · exact takeLimit_eventsEvolve s k
  · exact .refl s

theorem offerNotice_eventsEvolve (urgent : Bool) (priority : Nat) (body : NoticeBody) (n : SeqNumber) (s : State) :
    EventsEvolve s (offerNotice urgent priority body n s) := by
  rw [offerNotice_eq]
  exact reportBroadcast_eventsEvolve _ n s

theorem shareChange_eventsEvolve (t : Fin 40) (urgent : Bool) (priority : Nat) (on : Bool) (b : Burst) (s : State) :
    EventsEvolve s (shareChange t urgent priority on b s) := by
  unfold shareChange
  dsimp only
  exact ((offerRecord_eventsEvolve b.stamp _ _).trans (offerNotice_eventsEvolve _ _ _ _ _)).after_kept rfl

theorem recordChange_eventsEvolve (t : Fin 40) (on : Bool) (b : Burst) (s : State) :
    EventsEvolve s (recordChange t on b s) := by
  unfold recordChange
  dsimp only
  split
  · exact offerRecord_eventsEvolve b.stamp _ s
  · exact shareChange_eventsEvolve _ _ _ _ _ s
  · exact shareChange_eventsEvolve _ _ _ _ _ s

theorem provenChange_eventsEvolve (t : Fin 40) (on : Bool) (b : Burst) (s : State) :
    EventsEvolve s (provenChange t on b s) := by
  have hobserved : EventsEvolve s (observeChange t on b (recordChange t on b s)) :=
    (recordChange_eventsEvolve t on b s).trans (.of_kept (by simp))
  unfold provenChange signalPairs
  exact (hobserved.trans (.foldl (signalPair_eventsEvolve t on b) _ _)).trans
    (.foldl (takeUsedLimit_eventsEvolve t on) _ _)

theorem settle_eventsEvolve (t : Fin 40) (b : Burst) (s : State) : EventsEvolve s (settle t b s) := by
  have hput (i : InputState) : EventsEvolve s (putInput t i s) := .of_kept (by simp)
  unfold settle
  dsimp only
  split_ifs
  · exact (hput _).trans (offerRecordNow_eventsEvolve _ _)
  · exact hput _
  · exact (hput _).trans (provenChange_eventsEvolve t _ b _)

theorem offerAtStart_eventsEvolve (s : State) (t : Fin 40) : EventsEvolve s (offerAtStart s t) := by
  unfold offerAtStart
  split_ifs
  · exact offerRecordNow_eventsEvolve _ s
  · exact .refl s

theorem offerStatesAtStart_eventsEvolve (s : State) : EventsEvolve s (offerStatesAtStart s) :=
  .foldl offerAtStart_eventsEvolve _ s

theorem carryOutStart_eventsEvolve (s : State) : EventsEvolve s (carryOutStart s) := by
  have hmarker : EventsEvolve s (offerRecordNow (.start s.events.cause) (runEntered s)) :=
    (offerRecordNow_eventsEvolve _ _).after_kept rfl
  have hsampled : EventsEvolve s (sampleInputs (offerRecordNow (.start s.events.cause) (runEntered s))) :=
    hmarker.then_kept (by simp)
  exact (hsampled.trans (offerStatesAtStart_eventsEvolve _)).then_kept (by simp only [carryOutStart, runEntered])

/-! ## Select periods (R109, R187, R192, R193) -/

theorem selectCommand_eventsEvolve {early : Bool} {n : Nat} {wellFormed taken : Bool}
    {command : State → CommandEffect} (hc : ∀ u, EventsEvolve u (command u).1) (s : State) :
    EventsEvolve s (selectCommand early n wellFormed taken command s) := by
  have hclocked : EventsEvolve s (clockOutAnswer n s) := .of_kept (by simp)
  unfold selectCommand
  dsimp only
  split_ifs
  · exact .of_kept (by simp)
  · exact hclocked
  · exact hclocked
  · exact hclocked
  · exact hclocked.trans ((hc _).trans (.of_kept (by simp [answered])))

/-- A command's meaning that leaves the event queue. -/
theorem selectCommand_eventsEvolve_of_kept {early : Bool} {n : Nat} {wellFormed taken : Bool}
    {command : State → CommandEffect} (hc : ∀ u, (command u).1.events = u.events) (s : State) :
    EventsEvolve s (selectCommand early n wellFormed taken command s) :=
  selectCommand_eventsEvolve (fun u => .of_kept (hc u)) s

theorem takeOldest_eventsEvolve (n : Nat) (s : State) : EventsEvolve s (takeOldest n s).1 := by
  unfold takeOldest
  split_ifs
  · exact .refl s
  · exact .refl s
  · exact .single (.removed _ n)

theorem startStation_eventsEvolve (s : State) : EventsEvolve s (startStation s).1 := by
  unfold startStation
  split
  · exact .refl s
  · exact carryOutStart_eventsEvolve s

theorem configureItem_events (p : List Octet) (s : State) : (configureItem p s).1.events = s.events := by
  unfold configureItem
  split
  · split_ifs <;> rfl
  · rfl

theorem withSlot_events {command : Fin 256 → State → CommandEffect}
    (hc : ∀ slot u, (command slot u).1.events = u.events) (n : Nat) (u : State) :
    (withSlot n command u).1.events = u.events := by
  unfold withSlot
  split
  · exact hc _ u
  · rfl

theorem loadSlot_events (slot : Fin 256) (p : List Octet) (s : State) : (loadSlot slot p s).1.events = s.events := by
  unfold loadSlot
  split_ifs
  · rfl
  · split
    · split_ifs
      · simp [done]
      · rfl
    · rfl

theorem cancelAt_events (slot : Fin 256) (s : State) : (cancelAt slot s).1.events = s.events := by
  unfold cancelAt
  split_ifs <;> rfl

theorem peekAt_fst (k : Nat) (s : State) : (peekAt k s).1 = s := by
  unfold peekAt
  split <;> rfl

theorem readOrigin_fst (n : Nat) (s : State) : (readOrigin n s).1 = s := by
  unfold readOrigin
  split <;> rfl

theorem takeHead_events (s : State) : (takeHead s).1.events = s.events := by
  unfold takeHead
  split <;> rfl

theorem clearConditions_events (n : Nat) (s : State) : (clearConditions n s).1.events = s.events := by
  unfold clearConditions
  split_ifs <;> rfl

theorem setTimeTo_events (d : Date) (s : State) : (setTimeTo d s).1.events = s.events := by
  unfold setTimeTo
  split_ifs <;> rfl

theorem setDialTo_events (line position : Nat) (s : State) : (setDialTo line position s).1.events = s.events := by
  unfold setDialTo
  split
  · unfold setDialAt
    split
    · rfl
    · split_ifs <;> simp [refuse, done]
  · rfl

theorem execPortCommand_eventsEvolve (c : PortCommand) (p : SelectPeriod) {s t : State}
    (h : execPortCommand c p s = .next t) : EventsEvolve s t := by
  cases c <;> obtain rfl := Host.Outcome.next.inj h
  case configure => exact selectCommand_eventsEvolve_of_kept (configureItem_events p.params) s
  case start => exact selectCommand_eventsEvolve startStation_eventsEvolve s
  case restart => exact selectCommand_eventsEvolve (fun _ => .single (.reset .restart)) s
  case readStatus => exact selectCommand_eventsEvolve_of_kept (fun _ => rfl) s
  case takeEvents => exact selectCommand_eventsEvolve (takeOldest_eventsEvolve _) s
  case peekEvent => exact selectCommand_eventsEvolve_of_kept (fun u => by rw [peekAt_fst]) s
  case takeDeviation => exact selectCommand_eventsEvolve_of_kept takeHead_events s
  case loadEntry => exact selectCommand_eventsEvolve_of_kept (withSlot_events (fun slot => loadSlot_events slot _) _) s
  case cancelEntry => exact selectCommand_eventsEvolve_of_kept (withSlot_events cancelAt_events _) s
  case readEntry => exact selectCommand_eventsEvolve_of_kept (withSlot_events (fun _ _ => rfl) _) s
  case readHeard => exact selectCommand_eventsEvolve_of_kept (fun u => by rw [readOrigin_fst]) s
  case clearUrgent => exact selectCommand_eventsEvolve_of_kept (clearConditions_events _) s
  case setTime => exact selectCommand_eventsEvolve_of_kept (setTimeTo_events _) s
  case setDial => exact selectCommand_eventsEvolve_of_kept (setDialTo_events _ _) s

theorem answerOnlySelectPeriod_eventsEvolve (octets : Nat) (early : Bool) (s : State) :
    EventsEvolve s (if periodDiscarded early s then discardPeriod octets s else clockOutAnswer octets s) := by
  split_ifs <;> exact .of_kept (by simp)

theorem execUnknownCommand_eventsEvolve (octets : List Octet) (early : Bool) {s t : State}
    (h : execUnknownCommand octets early s = .next t) : EventsEvolve s t := by
  unfold execUnknownCommand at h
  split at h
  · exact execPortCommand_eventsEvolve _ _ h
  · split_ifs at h
    · obtain rfl := Host.Outcome.next.inj h
      exact answerOnlySelectPeriod_eventsEvolve 0 early s
    · obtain rfl := Host.Outcome.next.inj h
      exact selectCommand_eventsEvolve_of_kept (fun _ => rfl) s

/-! ## Every command -/

/-- A command whose point has not come changes nothing (assumption log 1). -/
theorem EventsEvolve.of_due {due : Prop} [Decidable due] {s t : State} (h : EventsEvolve s t) :
    EventsEvolve s (if due then t else s) := by
  split_ifs
  · exact h
  · exact .refl s

theorem exec_eventsEvolve {c : Instr} {s t : State} (h : exec c s = .next t) : EventsEvolve s t := by
  cases c with
  | unknownCommand octets early => exact execUnknownCommand_eventsEvolve octets early h
  | configure p => exact execPortCommand_eventsEvolve .configure p h
  | start p => exact execPortCommand_eventsEvolve .start p h
  | restart p => exact execPortCommand_eventsEvolve .restart p h
  | readStatus p => exact execPortCommand_eventsEvolve .readStatus p h
  | takeEvents p => exact execPortCommand_eventsEvolve .takeEvents p h
  | peekEvent p => exact execPortCommand_eventsEvolve .peekEvent p h
  | takeDeviation p => exact execPortCommand_eventsEvolve .takeDeviation p h
  | loadEntry p => exact execPortCommand_eventsEvolve .loadEntry p h
  | cancelEntry p => exact execPortCommand_eventsEvolve .cancelEntry p h
  | readEntry p => exact execPortCommand_eventsEvolve .readEntry p h
  | readHeard p => exact execPortCommand_eventsEvolve .readHeard p h
  | clearUrgent p => exact execPortCommand_eventsEvolve .clearUrgent p h
  | setTime p => exact execPortCommand_eventsEvolve .setTime p h
  | setDial p => exact execPortCommand_eventsEvolve .setDial p h
  | powerOn => exact Host.Outcome.next.inj h ▸ .single (.reset .powerOn)
  | frameOutcome how =>
    obtain rfl := Host.Outcome.next.inj h
    split
    · exact endOwnFrame_eventsEvolve how _ s
    · exact .refl s
  | receiveTimeFrame f => exact Host.Outcome.next.inj h ▸ frameEnds_eventsEvolve (endTimeFrame_eventsEvolve f s)
  | receiveNotice f => exact Host.Outcome.next.inj h ▸ frameEnds_eventsEvolve (endNotice_eventsEvolve f s)
  | receivePresence f => exact Host.Outcome.next.inj h ▸ frameEnds_eventsEvolve (endPresence_eventsEvolve f s)
  | receiveBadFrame why => exact Host.Outcome.next.inj h ▸ (endBadFrame_eventsEvolve why s).of_due
  | referencePulse =>
    obtain rfl := Host.Outcome.next.inj h
    split
    · have hput (k : Fin 40) : EventsEvolve s (putLevel k true s) := .of_kept (by simp)
      split_ifs
      · exact (hput _).trans (meetPulse_eventsEvolve _)
      · exact hput _
    · exact .refl s
  | edge terminal level => exact Host.Outcome.next.inj h ▸ takeLevel_eventsEvolve terminal level s
  | settleExpiry terminal =>
    obtain rfl := Host.Outcome.next.inj h
    split
    · exact (settle_eventsEvolve terminal _ s).of_due
    · exact .refl s
  | limitExpiry pair => exact Host.Outcome.next.inj h ▸ (takeLimit_eventsEvolve s pair).of_due
  | qualificationEnd => exact Host.Outcome.next.inj h ▸ (EventsEvolve.of_kept (by simp)).of_due
  | secondMark => exact Host.Outcome.next.inj h ▸ .of_kept (by simp)
  | correctionSecondEnd => exact Host.Outcome.next.inj h ▸ (EventsEvolve.of_kept (by simp)).of_due
  | holdoverEntry => exact Host.Outcome.next.inj h ▸ (EventsEvolve.of_kept (by simp)).of_due
  | presenceDue => exact Host.Outcome.next.inj h ▸ (EventsEvolve.of_kept (by simp)).of_due
  | beginReadyFrame =>
    obtain rfl := Host.Outcome.next.inj h
    split
    · exact (EventsEvolve.of_kept (by simp)).of_due
    · exact .refl s
  | silenceExpiry peer => exact Host.Outcome.next.inj h ▸ (EventsEvolve.of_kept (by simp)).of_due
  | silenceTimerExpiry => exact Host.Outcome.next.inj h ▸ (EventsEvolve.of_kept (by simp)).of_due
  | holdoverAging => exact Host.Outcome.next.inj h ▸ (EventsEvolve.of_kept (by simp)).of_due
  | referenceLoss => exact Host.Outcome.next.inj h ▸ (EventsEvolve.of_kept (by simp)).of_due
  | openFire => exact Host.Outcome.next.inj h ▸ (EventsEvolve.of_kept (by simp)).of_due
  | missFire => exact Host.Outcome.next.inj h ▸ (EventsEvolve.of_kept (by simp)).of_due
  | supplyChange supply =>
    obtain rfl := Host.Outcome.next.inj h
    split_ifs <;> exact .of_kept (by simp)
  | stepBoundary line => exact Host.Outcome.next.inj h ▸ .of_kept (by simp)
  | pulseStart line => exact Host.Outcome.next.inj h ▸ .of_kept (by simp)
  | pulseEnd line =>
    obtain rfl := Host.Outcome.next.inj h
    split
    · exact .of_kept (by simp)
    · exact .refl s
  | dominantLeadIn mark =>
    obtain rfl := Host.Outcome.next.inj h
    split_ifs
    · exact .refl s
    · split <;> exact .of_kept (by simp)
  | lineIdle =>
    obtain rfl := Host.Outcome.next.inj h
    split_ifs
    · exact .refl s
    · split <;> exact .refl s
  | answerOnlySelectPeriod octets early =>
    exact Host.Outcome.next.inj h ▸ answerOnlySelectPeriod_eventsEvolve octets early s

/-- The idle station queues a command or lets time pass; its event queue stays. -/
theorem idleStep_events (s : State) : (idleStep s).events = s.events := by
  unfold idleStep
  split <;> simp

/-- What a step does to the event queue is made of its moves. -/
theorem step_eventsEvolve {s t : State} (h : step s = .next t) : EventsEvolve s t := by
  unfold step at h
  split at h
  · next rest _ => exact exec_eventsEvolve (s := { s with pending := rest }) h
  · exact .of_kept (Host.Outcome.next.inj h ▸ idleStep_events s)

/-- Settles O57: a step's moves each keep the queue legal. -/
theorem stepKeepsTheEventQueueLegal : Obligations.StepKeepsTheEventQueueLegal := by
  intro s t hlegal hstep
  exact eventMoves_legal (step_eventsEvolve hstep) hlegal

end Sys2Proof.Machine

/-! # The records on the service port (R197), and the commands that return them (R109, R110, R124, R153) -/

namespace Sys2Proof.Machine

/-! ## Parts of a record: padding, absent fields, flags and codes -/

theorem padTo_length {n : Nat} {l : List Octet} (h : l.length ≤ n) : (padTo n l).length = n := by
  simp [padTo, h]

theorem field_padTo {n i k : Nat} {l : List Octet} (h : i + k ≤ l.length) :
    field (padTo n l) i k = field l i k := field_append_left h

theorem zerosFrom_padTo {n i j : Nat} {l : List Octet} (h : l.length ≤ i) : ZerosFrom (padTo n l) i j := by
  unfold padTo
  rw [zerosFrom_append h]
  exact zerosFrom_replicate _ _ _

@[simp] theorem orZeros_length {α : Type} {n : Nat} {f : α → List Octet} (hf : ∀ a, (f a).length = n)
    (o : Option α) : (orZeros n f o).length = n := by
  cases o <;> simp [orZeros, hf]

@[simp] theorem orZeros_some {α : Type} (n : Nat) (f : α → List Octet) (a : α) : orZeros n f (some a) = f a := rfl

@[simp] theorem field_orZeros_none {α : Type} (m i n : Nat) (f : α → List Octet) :
    field (orZeros m f none) i n = 0 := field_replicate m i n

@[simp] theorem zerosFrom_orZeros_none {α : Type} (m i j : Nat) (f : α → List Octet) :
    ZerosFrom (orZeros m f none) i j := zerosFrom_replicate m i j

theorem flags_lt (flags : List Bool) : flags.foldr (fun b n => b.toNat + 2 * n) 0 < 2 ^ flags.length := by
  induction flags with
  | nil => simp
  | cons b rest ih =>
    have hb : b.toNat ≤ 1 := Bool.toNat_le b
    rw [List.foldr_cons, List.length_cons, Nat.pow_succ]
    omega

theorem flagOctet_toNat {flags : List Bool} (h : flags.length ≤ 8) :
    (flagOctet flags).toNat = flags.foldr (fun b n => b.toNat + 2 * n) 0 := by
  have hlt := (flags_lt flags).trans_le (Nat.pow_le_pow_right (by decide) h)
  rw [flagOctet, octet_toNat, Nat.mod_eq_of_lt hlt]

theorem flag_weight (b : Bool) (n : Nat) : (if b = true then n else 0) = n * b.toNat := by cases b <;> simp

/-- The flags of a heard entry, and those of a check entry, by their weights. -/
theorem flagOctet_three (a b c : Bool) : (flagOctet [a, b, c]).toNat =
    (if a = true then 1 else 0) + (if b = true then 2 else 0) + (if c = true then 4 else 0) := by
  rw [flagOctet_toNat (by simp)]
  simp only [List.foldr, flag_weight]
  omega

theorem flagOctet_six (a b c d e f : Bool) : (flagOctet [a, b, c, d, e, f]).toNat =
    (if a = true then 1 else 0) + (if b = true then 2 else 0) + (if c = true then 4 else 0) +
      (if d = true then 8 else 0) + (if e = true then 16 else 0) + (if f = true then 32 else 0) := by
  rw [flagOctet_toNat (by simp)]
  simp only [List.foldr, flag_weight]
  omega

/-! A flag or a code as an octet is itself. -/

@[simp] theorem toNat_bool_mod (b : Bool) : b.toNat % 256 = if b = true then 1 else 0 := by cases b <;> rfl
@[simp] theorem timeStateCode_mod (t : TimeState) : timeStateCode t % 256 = timeStateCode t := by cases t <;> rfl
@[simp] theorem kindCode_mod (b : EventBody) : kindCode b % 256 = kindCode b := by cases b <;> rfl
@[simp] theorem causeCode_mod (c : ResetCause) : causeCode c % 256 = causeCode c := by cases c <;> rfl
@[simp] theorem broadcastCode_mod (b : Broadcast) : broadcastCode b % 256 = broadcastCode b := by cases b <;> rfl
@[simp] theorem verdictCode_mod (v : Verdict) : verdictCode v % 256 = verdictCode v := by cases v <;> rfl

/-! An epoch with its date, located in a concatenation. -/

@[simp] theorem epochDateAt_epochDateOctets (d : DatedEpoch) : EpochDateAt (epochDateOctets d) 0 d := by
  simp [EpochDateAt, epochDateOctets, dateAt_cons]

theorem epochDateAt_append_left {a b : List Octet} {i : Nat} {d : DatedEpoch} (h : i + 8 ≤ a.length) :
    EpochDateAt (a ++ b) i d ↔ EpochDateAt a i d := by
  unfold EpochDateAt
  rw [field_append_left (by omega), dateAt_append_left (by omega)]

theorem epochDateAt_append_right {a b : List Octet} {i : Nat} {d : DatedEpoch} (h : a.length ≤ i) :
    EpochDateAt (a ++ b) i d ↔ EpochDateAt b (i - a.length) d := by
  unfold EpochDateAt
  rw [field_append_right h, dateAt_append_right (by omega), show i + 1 - a.length = i - a.length + 1 by omega]

theorem epochDateAt_cons {o : Octet} {l : List Octet} {i : Nat} {d : DatedEpoch} (h : 0 < i) :
    EpochDateAt (o :: l) i d ↔ EpochDateAt l (i - 1) d :=
  epochDateAt_append_right (a := [o]) h

/-! ## The event record -/

/-- Octets 0 to 11 of an event record, the same for every kind. -/
def eventHeadOctets (r : EventRecord) : List Octet :=
  beOctets 2 r.seq.toNat ++ [octet (kindCode r.body), octet (timeStateCode r.stamp.timeState), r.stamp.epoch] ++
    dateOctets r.stamp.date

theorem eventHeadOctets_length (r : EventRecord) : (eventHeadOctets r).length = 12 := by
  simp [eventHeadOctets]

theorem eventRecordOctets_eq (r : EventRecord) :
    eventRecordOctets r = padTo 32 (eventHeadOctets r ++ eventPartOctets r.body) := rfl

theorem eventPartOctets_length_le (body : EventBody) : (eventPartOctets body).length ≤ 20 := by
  cases body <;> simp [eventPartOctets]

theorem eventRecordOctets_length (r : EventRecord) : (eventRecordOctets r).length = 32 := by
  have hpart := eventPartOctets_length_le r.body
  rw [eventRecordOctets_eq, padTo_length]
  simp only [List.length_append, eventHeadOctets_length]
  omega

theorem field_eventHead {r : EventRecord} {i n : Nat} (h : i + n ≤ 12) :
    field (eventRecordOctets r) i n = field (eventHeadOctets r) i n := by
  have hhead := eventHeadOctets_length r
  rw [eventRecordOctets_eq, field_padTo (by simp only [List.length_append]; omega), field_append_left (by omega)]

/-- What stands at octet 12 and after is read from the kind's own part. -/
theorem field_eventPart {r : EventRecord} {i n : Nat} (hi : 12 ≤ i)
    (h : i + n ≤ 12 + (eventPartOctets r.body).length) :
    field (eventRecordOctets r) i n = field (eventPartOctets r.body) (i - 12) n := by
  have hhead := eventHeadOctets_length r
  rw [eventRecordOctets_eq, field_padTo (by simp only [List.length_append]; omega), field_append_right (by omega),
    hhead]

theorem dateAt_eventPart {r : EventRecord} {i : Nat} {d : Date} (hi : 12 ≤ i)
    (h : i + 7 ≤ 12 + (eventPartOctets r.body).length) :
    DateAt (eventRecordOctets r) i d ↔ DateAt (eventPartOctets r.body) (i - 12) d := by
  unfold DateAt
  rw [field_eventPart hi (by omega), field_eventPart (by omega) (by omega), show i + 2 - 12 = i - 12 + 2 by omega]

theorem epochDateAt_eventPart {r : EventRecord} {i : Nat} {d : DatedEpoch} (hi : 12 ≤ i)
    (h : i + 8 ≤ 12 + (eventPartOctets r.body).length) :
    EpochDateAt (eventRecordOctets r) i d ↔ EpochDateAt (eventPartOctets r.body) (i - 12) d := by
  unfold EpochDateAt
  rw [field_eventPart hi (by omega), dateAt_eventPart (by omega) (by omega), show i + 1 - 12 = i - 12 + 1 by omega]

theorem zerosFrom_eventRecord {r : EventRecord} {i : Nat} (h : 12 + (eventPartOctets r.body).length ≤ i) :
    ZerosFrom (eventRecordOctets r) i 32 :=
  zerosFrom_padTo (l := eventHeadOctets r ++ _) (by rwa [List.length_append, eventHeadOctets_length])

/-- Octets 0 to 11, field by field. -/
theorem eventHead_layout (r : EventRecord) :
    field (eventHeadOctets r) 0 2 = r.seq.toNat ∧ field (eventHeadOctets r) 2 1 = kindCode r.body ∧
    field (eventHeadOctets r) 3 1 = timeStateCode r.stamp.timeState ∧
    field (eventHeadOctets r) 4 1 = r.stamp.epoch.toNat ∧ DateAt (eventHeadOctets r) 5 r.stamp.date := by
  have hseq : r.seq.toNat % 65536 = r.seq.toNat := Nat.mod_eq_of_lt r.seq.isLt
  unfold eventHeadOctets
  refine ⟨?seq, ?kind, ?state, ?epoch, ?date⟩
  case seq => simp [field_append_left, hseq]
  case date => simp [dateAt_append_right, dateAt_cons]
  all_goals simp [field_append_right, field_cons_pos]

/-- Octet 2 and octets 12 to 31, kind by kind. -/
theorem eventPart_layout (r : EventRecord) (hkind : field (eventRecordOctets r) 2 1 = kindCode r.body) :
    EventPartLayout (eventRecordOctets r) r.body := by
  obtain ⟨seq, stamp, body⟩ := r
  cases body with
  | start cause =>
    simp [EventPartLayout, hkind, kindCode, eventPartOctets, field_eventPart, zerosFrom_eventRecord]
  | stateAtStart channel on =>
    simp [EventPartLayout, hkind, kindCode, eventPartOctets, field_eventPart, zerosFrom_eventRecord, field_cons_pos]
  | chatter channel bounces =>
    simp [EventPartLayout, hkind, kindCode, eventPartOctets, field_eventPart, zerosFrom_eventRecord, field_cons_pos]
  | stateChange channel on bounces broadcast noticeSeq =>
    cases noticeSeq <;>
      simp [EventPartLayout, hkind, kindCode, eventPartOctets, field_eventPart, zerosFrom_eventRecord, field_cons_pos,
        field_append_left, field_append_right, flagOctet_toNat]
  | movement pair verdict start duration =>
    cases duration <;>
      simp [EventPartLayout, hkind, kindCode, eventPartOctets, field_eventPart, epochDateAt_eventPart,
        zerosFrom_eventRecord, field_cons_pos, epochDateAt_cons, field_append_right, epochDateAt_append_left,
        flagOctet_toNat]
  | timeStep oldDate newDate =>
    simp [EventPartLayout, hkind, kindCode, eventPartOctets, dateAt_eventPart, zerosFrom_eventRecord,
      dateAt_append_left, dateAt_append_right]
  | gap lost first last =>
    simp [EventPartLayout, hkind, kindCode, eventPartOctets, field_eventPart, epochDateAt_eventPart,
      zerosFrom_eventRecord, field_append_left, epochDateAt_append_left, epochDateAt_append_right]

/-- An event record as R197 lays it out. -/
theorem eventRecord_layout (r : EventRecord) : EventLayout (eventRecordOctets r) r := by
  obtain ⟨hseq, hkind, hstate, hepoch, hdate⟩ := eventHead_layout r
  have hday : DateAt (eventRecordOctets r) 5 r.stamp.date := by
    unfold DateAt
    rw [field_eventHead (by decide), field_eventHead (by decide)]
    exact hdate
  exact ⟨eventRecordOctets_length r, (field_eventHead (by decide)).trans hseq,
    (field_eventHead (by decide)).trans hstate, (field_eventHead (by decide)).trans hepoch, hday,
    eventPart_layout r ((field_eventHead (by decide)).trans hkind)⟩

/-! ## The heard entry and the check entry -/

@[simp] theorem statusCode_mod (st : EntryStatus) : statusCode st % 256 = statusCode st := by cases st <;> rfl
@[simp] theorem checkVerdictCode_mod (v : CheckVerdict) : checkVerdictCode v % 256 = checkVerdictCode v := by
  cases v <;> rfl
@[simp] theorem subjectStateCode_mod (st : SubjectState) : subjectStateCode st % 256 = subjectStateCode st := by
  cases st <;> rfl
@[simp] theorem presenceCode_mod (p : Presence) : presenceCode p % 256 = presenceCode p := by cases p <;> rfl

/-- A heard entry as R197 lays it out. -/
theorem heardOctets_layout (origin : Nat) (e : HeardEntry) : HeardLayout (heardOctets origin e) origin e := by
  unfold heardOctets
  refine ⟨?length, ?origin, ?presence, ?flags, fun t ht => ?good, fun hno => ?noGood, fun n hn => ?seq,
    fun hno => ?noSeq, ?missed, fun p hp => ?last, fun hno => ?noLast⟩
  case length => simp [lastPresenceOctets]
  case origin => simp
  case presence => simp [field_cons_pos]
  case flags => simp [field_cons_pos, flagOctet_three]
  case good => simp [ht, field_cons_pos, field_append_left, Nat.mod_eq_of_lt t.isLt]
  case noGood => simp [hno, field_cons_pos, field_append_left]
  case seq => simp [hn, field_cons_pos, field_append_right]
  case noSeq => simp [hno, field_cons_pos, field_append_right, field_append_left]
  case missed => simp [field_cons_pos, field_append_right, field_append_left]
  case last =>
    have hgrade : p.grade.toNat % 256 = p.grade.toNat := by omega
    have hstanding : p.standing.toNat % 256 = p.standing.toNat := by omega
    simp [hp, field_cons_pos, field_append_right, lastPresenceOctets, hgrade, hstanding]
  case noLast => simp [hno, zerosFrom_cons, zerosFrom_append]

@[simp] theorem entryDatesOctets_length (d : EntryDates) : (entryDatesOctets d).length = 21 := by
  simp [entryDatesOctets]

@[simp] theorem matchedOctets_length (m : Matched) : (matchedOctets m).length = 9 := by
  simp [matchedOctets]

theorem zerosFrom_dateOctets_zero (i j : Nat) : ZerosFrom (dateOctets { day := 0, us := 0 }) i j :=
  zerosFrom_replicate 7 i j

/-- 65 octets have a field, and octet 65 pads the entry (R197). -/
theorem heldEntryOctets_length (slot : Fin 256) (e : CheckEntry) : (heldEntryOctets slot e).length = 66 := by
  unfold heldEntryOctets
  apply padTo_length
  simp

/-- A check entry that is not EMPTY, as R197 lays it out. -/
theorem heldEntry_layout (slot : Fin 256) (e : CheckEntry) : HeldEntryLayout (heldEntryOctets slot e) e := by
  unfold heldEntryOctets padTo
  refine ⟨?status, fun v hv => ?verdict, fun hno => ?noVerdict, ?flags, ?origin, ?channel, ?state, ?grade,
    fun p hp => ?predecessor, fun hno => ?noPredecessor, fun ms hms => ?relative, fun d hd => ?absolute, ?early, ?late,
    fun d hd => ?dates, fun hno => ?noDates, fun d hd => ?arming, fun hno => ?noArming, fun n hn => ?snapshot,
    fun hno => ?noSnapshot, fun m hm => ?matched, fun hno => ?noMatched, ?padding⟩
  case status => simp [field_cons_pos]
  case verdict => simp [hv, field_cons_pos]
  case noVerdict => simp [hno, field_cons_pos]
  case flags => cases e.dueKind <;> simp [field_cons_pos, flagOctet_six, isRelative]
  case origin => simp [field_cons_pos]
  case channel => simp [field_cons_pos]
  case state => simp [field_cons_pos]
  case grade => simp [field_cons_pos]
  case predecessor => simp [hp, field_cons_pos]
  case noPredecessor => simp [hno, field_cons_pos, field_append_left]
  case relative =>
    simp [hms, field_cons_pos, field_append_right, field_append_left, relativeOffset, absoluteDue,
      zerosFrom_dateOctets_zero, zerosFrom_cons, zerosFrom_append, zerosFrom_append_left]
  case absolute =>
    simp [hd, field_cons_pos, field_append_right, field_append_left, relativeOffset, absoluteDue, dateAt_cons,
      dateAt_append_left, dateAt_append_right]
  case early => simp [field_cons_pos, field_append_right, field_append_left]
  case late => simp [field_cons_pos, field_append_right, field_append_left]
  case dates => simp [hd, dateAt_cons, dateAt_append_right, dateAt_append_left, entryDatesOctets]
  case noDates => simp [hno, zerosFrom_cons, zerosFrom_append, zerosFrom_append_left]
  case arming => simp [hd, dateAt_cons, dateAt_append_right, dateAt_append_left]
  case noArming => simp [hno, zerosFrom_cons, zerosFrom_append, zerosFrom_append_left]
  case snapshot => simp [hn, field_cons_pos, field_append_right, field_append_left]
  case noSnapshot => simp [hno, field_cons_pos, field_append_right, field_append_left]
  case matched =>
    simp [hm, field_cons_pos, field_append_right, dateAt_cons, dateAt_append_right, dateAt_append_left, matchedOctets]
  case noMatched => simp [hno, zerosFrom_cons, zerosFrom_append, zerosFrom_append_left]
  case padding => simp [field_cons_pos, field_append_right]

/-- A slot of the check table as R197 lays it out, EMPTY or not. -/
theorem entryOctets_layout (slot : Fin 256) (entry : Option CheckEntry) :
    EntryLayout (entryOctets slot entry) slot entry := by
  have hslot : slot.val % 256 = slot.val := Nat.mod_eq_of_lt slot.isLt
  cases entry with
  | none =>
    refine ⟨padTo_length (by simp), ?slot, fun _ => zerosFrom_padTo (by simp), by simp⟩
    case slot => simp [entryOctets, padTo, hslot]
  | some e =>
    refine ⟨heldEntryOctets_length slot e, ?slot, by simp, fun e' he => ?held⟩
    case slot => simp [entryOctets, heldEntryOctets, padTo, hslot]
    case held =>
      obtain rfl := Option.some.inj he
      exact heldEntry_layout slot e

/-! ## A command that changes nothing (R187) -/

/-- A command of RUN that changes nothing holds its answer (R187). -/
theorem answersWith_done {c : Instr} {s : State} {n : Nat} {returned : List Octet} {e : CommandEffect}
    (hexec : exec c s = .next (answered e)) (he : e = done returned (clockOutAnswer n s)) :
    AnswersWith c s (0 :: returned) := by
  subst he
  exact ⟨_, hexec, answered_done returned n s⟩

/-- A refused command changes nothing (R187). -/
theorem answersWith_refuse {c : Instr} {s : State} {n : Nat} {r : RefusalCode} {e : CommandEffect}
    (hexec : exec c s = .next (answered e)) (he : e = refuse r (clockOutAnswer n s)) :
    AnswersWith c s (refusedWith r) := by
  subst he
  exact ⟨_, hexec, answered_refuse r n s⟩

/-! ## TAKE EVENTS (R109) -/

theorem exec_takeEvents {s : State} (octet : Octet) (hs : s.port.station = .run) :
    exec (.takeEvents { params := [octet], early := false }) s =
      .next (answered (takeOldest octet.toNat (clockOutAnswer 2 s))) := by
  rw [← field_cons_zero octet []]
  exact congrArg _ (hostCommand_inRun (count := 1) hs rfl (by decide))

theorem takeOldest_of_out_of_range {n : Nat} {s : State} (h : n = 0 ∨ 8 < n) : takeOldest n s = refuse .range s :=
  if_pos h

theorem takeOldest_of_empty {n : Nat} {s : State} (hlow : 1 ≤ n) (hhigh : n ≤ 8) (h : s.events.records = []) :
    takeOldest n s = refuse .empty s := by
  unfold takeOldest
  rw [if_neg (by omega), if_pos h]

theorem takeOldest_of_held {n : Nat} {s : State} (hlow : 1 ≤ n) (hhigh : n ≤ 8) (h : s.events.records ≠ []) :
    takeOldest n s = done (eventsOctets (s.events.records.take n))
      { s with events := removeOldest (stampNow s) n s.events } := by
  unfold takeOldest
  rw [if_neg (by omega), if_neg h]

theorem removeOldest_of_none (now : Stamp) (n : Nat) {q : EventQueue} (h : q.lost = none) :
    removeOldest now n q = { q with records := q.records.drop n } := admitGap_of_none now h

/-- A removal leaves a place for the GAP record owed (R102, R109). -/
theorem removeOldest_of_owed (now : Stamp) {n : Nat} {q : EventQueue} {l : LostRun} (h : q.lost = some l)
    (hroom : (q.records.drop n).length < 512) :
    removeOldest now n q = { q with
      records := q.records.drop n ++ [{ seq := q.nextSeq, stamp := now, body := .gap l.tally l.first l.last }]
      nextSeq := q.nextSeq + 1, lost := none } := admitGap_of_room now h hroom

/-- Settles O40: the two refusals in their order, or the removal with the GAP record it leaves a place for. -/
theorem takeEventsRemovesTheOldest : Obligations.TakeEventsRemovesTheOldest := by
  intro s octet hs
  have hexec := exec_takeEvents octet hs
  refine ⟨fun hout => ?_, fun hlow hhigh hempty => ?_, fun hlow hhigh hheld hlength => ?_⟩
  · exact answersWith_refuse hexec (takeOldest_of_out_of_range hout)
  · exact answersWith_refuse hexec (takeOldest_of_empty hlow hhigh hempty)
  · rw [takeOldest_of_held (s := clockOutAnswer 2 s) hlow hhigh hheld] at hexec
    have hpositive : 0 < s.events.records.length := List.length_pos_of_ne_nil hheld
    have hroom : (s.events.records.drop octet.toNat).length < 512 := by
      rw [List.length_drop]
      omega
    exact ⟨_, hexec, ⟨rfl, fun r _ => eventRecord_layout r⟩, removeOldest_of_none _ _,
      fun l hl => removeOldest_of_owed _ hl hroom, rfl⟩

/-! ## PEEK EVENT, READ ENTRY and READ HEARD (R110, R124, R153) -/

theorem exec_peekEvent {s : State} {params : List Octet} (hs : s.port.station = .run) (hl : params.length = 2) :
    exec (.peekEvent { params := params, early := false }) s =
      .next (answered (peekAt (field params 0 2) (clockOutAnswer (params.length + 1) s))) :=
  congrArg _ (hostCommand_inRun hs hl (by decide))

theorem exec_readEntry {s : State} {params : List Octet} (hs : s.port.station = .run) (hl : params.length = 2) :
    exec (.readEntry { params := params, early := false }) s =
      .next (answered (withSlot (field params 0 2) readSlot (clockOutAnswer (params.length + 1) s))) :=
  congrArg _ (hostCommand_inRun hs hl (by decide))

theorem exec_readHeard {s : State} (origin : Octet) (hs : s.port.station = .run) :
    exec (.readHeard { params := [origin], early := false }) s =
      .next (answered (readOrigin origin.toNat (clockOutAnswer 2 s))) := by
  rw [← field_cons_zero origin []]
  exact congrArg _ (hostCommand_inRun (count := 1) hs rfl (by decide))

theorem peekAt_of_held {k : Nat} {s : State} {r : EventRecord} (h : s.events.records[k]? = some r) :
    peekAt k s = done (eventRecordOctets r) s := by
  simp [peekAt, h]

theorem peekAt_of_beyond {k : Nat} {s : State} (h : s.events.records.length ≤ k) : peekAt k s = refuse .range s := by
  simp [peekAt, List.getElem?_eq_none h]

theorem withSlot_of_slot (slot : Fin 256) (command : Fin 256 → State → CommandEffect) (s : State) :
    withSlot slot.val command s = command slot s := by
  simp [withSlot, place]

theorem withSlot_of_beyond {n : Nat} (command : Fin 256 → State → CommandEffect) (s : State) (h : 255 < n) :
    withSlot n command s = refuse .range s := by
  have hn : ¬ n < 256 := by omega
  simp [withSlot, place, hn]

theorem readOrigin_of_origin (k : Fin 62) (s : State) :
    readOrigin (k.val + 1) s = done (heardOctets (k.val + 1) s.line.heard[k]) s := by
  simp [readOrigin, placeFromOne, place]

theorem readOrigin_of_beyond {n : Nat} (s : State) (h : n = 0 ∨ 62 < n) : readOrigin n s = refuse .range s := by
  have hplace : placeFromOne 62 n = none := by
    rcases h with rfl | h
    · rfl
    · have hn : ¬ n - 1 < 62 := by omega
      simp [placeFromOne, place, hn]
  simp [readOrigin, hplace]

/-- Settles O41: each read by the record it finds, with that record's layout, and RANGE where it finds none. -/
theorem readsReturnTheirRecordAndChangeNothing : Obligations.ReadsReturnTheirRecordAndChangeNothing := by
  have hcodes : RecordCodes := ⟨rfl, rfl, rfl, rfl, rfl, rfl, rfl, rfl, rfl⟩
  refine ⟨hcodes, fun s hs => ⟨fun params hl => ⟨fun r hr => ?peek, ?noRecord⟩,
    fun params hl => ⟨fun slot hslot => ?entry, ?noSlot⟩, fun origin => ⟨fun k hk => ?heard, ?noOrigin⟩⟩⟩
  case peek => exact ⟨answersWith_done (exec_peekEvent hs hl) (peekAt_of_held hr), eventRecord_layout r⟩
  case noRecord => exact fun hk => answersWith_refuse (exec_peekEvent hs hl) (peekAt_of_beyond hk)
  case entry =>
    have hread : withSlot (field params 0 2) readSlot (clockOutAnswer (params.length + 1) s) =
        done (entryOctets slot s.checker.slots[slot]) (clockOutAnswer (params.length + 1) s) := by
      rw [hslot, withSlot_of_slot]
      rfl
    exact ⟨answersWith_done (exec_readEntry hs hl) hread, entryOctets_layout slot _⟩
  case noSlot => exact fun hn => answersWith_refuse (exec_readEntry hs hl) (withSlot_of_beyond _ _ hn)
  case heard =>
    have hread : readOrigin origin.toNat (clockOutAnswer 2 s) =
        done (heardOctets origin.toNat s.line.heard[k]) (clockOutAnswer 2 s) := by
      rw [hk, readOrigin_of_origin]
      rfl
    exact ⟨answersWith_done (exec_readHeard origin hs) hread, heardOctets_layout _ _⟩
  case noOrigin => exact fun hn => answersWith_refuse (exec_readHeard origin hs) (readOrigin_of_beyond _ hn)

end Sys2Proof.Machine

/-! # The heard table's silence expiries (R117 to R119, R123)

Every command leaves the heard table as it is, empties it, renews the entry of the peer whose good frame has ended, or
turns one entry SILENT; each of these keeps an expiry exactly in the PRESENT entries. -/

namespace Sys2Proof.Machine

/-! ## The changes of the heard table -/

/-- What one command can do to the heard table. -/
inductive HeardMove (l m : LineController) : Prop
  | kept (h : m.heard = l.heard)
  | emptied (h : m.heard = Vector.replicate 62 heardNever)
  | renewed (k : Fin 62) {e : HeardEntry} (hpresence : e.presence = .present) (hexpiry : e.silenceExpiry.isSome = true)
      (h : m.heard = l.heard.set k e)
  | silenced (k : Fin 62) (h : m.heard = l.heard.set k (fallSilent l.heard[k]))

/-- What HeardLegal says of each entry (R119). -/
def ExpiryFits (e : HeardEntry) : Prop := e.silenceExpiry.isSome = true ↔ e.presence = .present

theorem heardLegal_iff (l : LineController) : HeardLegal l ↔ ∀ k : Fin 62, ExpiryFits l.heard[k] := Iff.rfl

theorem HeardMove.heardLegal {l m : LineController} (move : HeardMove l m) (hl : HeardLegal l) : HeardLegal m := by
  rw [heardLegal_iff] at *
  cases move with
  | kept h => rwa [h]
  | emptied h => simp [h, ExpiryFits, heardNever]
  | renewed k hpresence hexpiry h =>
    rw [h]
    exact forall_set (p := fun _ => ExpiryFits) (by simp [ExpiryFits, hpresence, hexpiry]) hl
  | silenced k h =>
    rw [h]
    exact forall_set (p := fun _ => ExpiryFits) (by simp [ExpiryFits, fallSilent]) hl

/-- A command whose point has not come changes nothing (assumption log 1). -/
theorem HeardMove.of_due {due : Prop} [Decidable due] {s t : State} (move : HeardMove s.line t.line) :
    HeardMove s.line (if due then t else s).line := by
  split_ifs
  · exact move
  · exact .kept rfl

/-! ## An entry renewed (R117) -/

/-- The entry is PRESENT with the expiry that a good frame ending in `s` gives it (R117, R119). -/
def RenewedIn (s : State) (e : HeardEntry) : Prop :=
  e.presence = .present ∧ e.silenceExpiry = some (s.time.elapsed + usSpan (s.port.image.silenceLimit * 1000000))

theorem hearFrame_renewedIn (s : State) (e : HeardEntry) :
    RenewedIn s (hearFrame s.time.elapsed s.port.image.silenceLimit e) := ⟨rfl, rfl⟩

theorem hearNotice_renewedIn (r : RecentNotice) {s : State} {e : HeardEntry} (h : RenewedIn s e) :
    RenewedIn s (hearNotice r e) := h

/-- A PRESENCE changes what was announced, and the sequence account (R121, R122). -/
theorem hearPresence_renewedIn (b : PresenceBody) {s : State} {e : HeardEntry} (h : RenewedIn s e) :
    RenewedIn s (hearPresence b e) := by
  unfold hearPresence
  dsimp only
  split
  · exact h
  · split_ifs <;> exact h

/-- The frame's end left the table but for that entry, which it renewed. -/
def Renews (k : Fin 62) (s t : State) : Prop := ∃ e, RenewedIn s e ∧ t.line.heard = s.line.heard.set k e

theorem Renews.move {k : Fin 62} {s t : State} (h : Renews k s t) : HeardMove s.line t.line := by
  obtain ⟨e, ⟨hpresence, hexpiry⟩, ht⟩ := h
  exact .renewed k hpresence (by simp [hexpiry]) ht

theorem Renews.entry {k : Fin 62} {s t : State} (h : Renews k s t) : RenewedIn s t.line.heard[k] := by
  obtain ⟨e, he, ht⟩ := h
  simpa [ht] using he

theorem endNotice_renews {f : NoticeFrame} {s : State} {k : Fin 62} (hs : s.port.station = .run)
    (hk : peerOf f.origin s = some k) : Renews k s (endNotice f s) := by
  have hheard := hearFrame_renewedIn s s.line.heard[k]
  rw [endNotice_of_peer hs hk]
  by_cases hrepeat : isRepeat (recentOf f)
    (hearFrame s.time.elapsed s.port.image.silenceLimit s.line.heard[k]) = true
  · refine ⟨_, hheard, ?_⟩
    rw [steerNotice_of_repeat (by simpa using hrepeat)]
    simp [steerHeard, setHeard]
  · refine ⟨_, hearNotice_renewedIn (recentOf f) hheard, ?_⟩
    rw [steerNotice_of_new (by simpa using hrepeat)]
    split_ifs <;> simp [noticeCounted]

theorem endPresence_renews {f : PresenceFrame} {s : State} {k : Fin 62} (hs : s.port.station = .run)
    (hk : peerOf f.origin s = some k) : Renews k s (endPresence f s) := by
  refine ⟨_, hearPresence_renewedIn f.body (hearFrame_renewedIn s s.line.heard[k]), ?_⟩
  rw [endPresence_of_peer hs hk]
  simp [setHeard]

theorem endTimeFrame_renews {f : TimeFrame} {s : State} {k : Fin 62} (hs : s.port.station = .run)
    (hk : peerOf f.origin s = some k) : Renews k s (endTimeFrame f s) := by
  refine ⟨_, hearFrame_renewedIn s s.line.heard[k], ?_⟩
  rw [endTimeFrame_of_peer hs hk]
  simp [steerHeard, setHeard]

/-! ## Frames that end -/

/-- Outside RUN a good frame is scored and steered nowhere (R46). -/
theorem endNotice_move (f : NoticeFrame) (s : State) : HeardMove s.line (endNotice f s).line := by
  by_cases hs : s.port.station = .run
  · cases hk : peerOf f.origin s with
    | some k => exact (endNotice_renews hs hk).move
    | none => exact .kept (by simp [endNotice_of_stranger hk])
  · have hnot : inRun (endGoodFrame f.origin s) = false := by simp [inRun, hs]
    refine .kept ?_
    unfold endNotice
    dsimp only
    split <;> simp [hnot]

theorem endPresence_move (f : PresenceFrame) (s : State) : HeardMove s.line (endPresence f s).line := by
  by_cases hs : s.port.station = .run
  · cases hk : peerOf f.origin s with
    | some k => exact (endPresence_renews hs hk).move
    | none => exact .kept (by simp [endPresence_of_stranger hk])
  · have hnot : inRun (endGoodFrame f.origin s) = false := by simp [inRun, hs]
    refine .kept ?_
    unfold endPresence
    dsimp only
    split <;> simp [hnot]

theorem endTimeFrame_move (f : TimeFrame) (s : State) : HeardMove s.line (endTimeFrame f s).line := by
  by_cases hs : s.port.station = .run
  · cases hk : peerOf f.origin s with
    | some k => exact (endTimeFrame_renews hs hk).move
    | none =>
      refine .kept ?_
      unfold endTimeFrame
      simp only [peerOf_endGoodFrame, hk]
      split_ifs <;> simp
  · have hnot : inRun (endGoodFrame f.origin s) = false := by simp [inRun, hs]
    exact .kept (by simp [endTimeFrame, hnot])

theorem takeScore_heard (score : Nat) (s : State) : (takeScore score s).line.heard = s.line.heard := by
  rw [takeScore_line]
  split_ifs <;> rfl

theorem duplicateStation_heard (s : State) : (duplicateStation s).line.heard = s.line.heard := by
  unfold duplicateStation
  dsimp only
  split_ifs <;> simp

theorem scoreOwnFrame_heard (how : FrameEnd) (s : State) : (scoreOwnFrame how s).line.heard = s.line.heard := by
  unfold scoreOwnFrame
  cases how with
  | lost => rfl
  | completed => dsimp only; split_ifs <;> simp [takeScore_heard]
  | objected => dsimp only; split_ifs <;> simp [takeScore_heard]
  | collided => dsimp only; split_ifs <;> simp [takeScore_heard, duplicateStation_heard]

theorem endBadFrame_heard (why : BadFrame) (s : State) : (endBadFrame why s).line.heard = s.line.heard := by
  unfold endBadFrame scoreBadFrame
  dsimp only
  split_ifs <;> simp [takeScore_heard, badFrameEnds]

theorem frameEnds_move {isTime checkAgrees : Bool} {good : State → State} {s : State}
    (hgood : HeardMove s.line (good s).line) : HeardMove s.line (frameEnds isTime checkAgrees good s).line := by
  unfold frameEnds
  split_ifs
  · exact hgood
  · exact .kept (endBadFrame_heard _ s)
  · exact .kept (endBadFrame_heard _ s)
  · exact .kept rfl

theorem endOwnFrame_heard (how : FrameEnd) (f : OwnFrame) (s : State) :
    (endOwnFrame how f s).line.heard = s.line.heard := by
  unfold endOwnFrame
  dsimp only
  split_ifs
  · rw [scoreOwnFrame_heard]
    cases f.owner with
    | queueItem order => simp [ownerTakes, settleItem_line, lineAfterOwn]
    | agreement => rfl
    | noBlock => rfl
  · rfl

/-! ## The transmit queue and the proven change -/

theorem queuePresence_heard (b : PresenceBody) (l : LineController) : (queuePresence b l).heard = l.heard := by
  unfold queuePresence
  split_ifs <;> rfl

theorem offerNotice_heard (urgent : Bool) (priority : Nat) (body : NoticeBody) (n : SeqNumber) (s : State) :
    (offerNotice urgent priority body n s).line.heard = s.line.heard := by
  unfold offerNotice
  dsimp only
  split_ifs <;> simp [joinQueue]

theorem recordChange_heard (t : Fin 40) (on : Bool) (b : Burst) (s : State) :
    (recordChange t on b s).line.heard = s.line.heard := by
  unfold recordChange shareChange
  dsimp only
  split <;> simp [offerNotice_heard]

theorem settle_heard (t : Fin 40) (b : Burst) (s : State) : (settle t b s).line.heard = s.line.heard := by
  unfold settle
  dsimp only
  split_ifs <;> simp [provenChange_line, recordChange_heard]

/-! ## Select periods -/

theorem selectCommand_move {early : Bool} {n : Nat} {wellFormed taken : Bool} {command : State → CommandEffect}
    (hc : ∀ u : State, HeardMove u.line (command u).1.line) (s : State) :
    HeardMove s.line (selectCommand early n wellFormed taken command s).line := by
  unfold selectCommand
  dsimp only
  split_ifs
  · exact .kept (by simp)
  · exact .kept (by simp [answered, refuse])
  · exact .kept (by simp [answered, refuse])
  · exact .kept (by simp [answered, refuse])
  · simpa [answered] using hc (clockOutAnswer n s)

/-- A command's meaning that leaves the line controller. -/
theorem selectCommand_move_of_line {early : Bool} {n : Nat} {wellFormed taken : Bool}
    {command : State → CommandEffect} (hc : ∀ u : State, (command u).1.line = u.line) (s : State) :
    HeardMove s.line (selectCommand early n wellFormed taken command s).line :=
  selectCommand_move (fun u => .kept (congrArg _ (hc u))) s

/-- A written acceptance entry changes a hit count, and no item a heard entry (R127, R190). -/
theorem configureItem_move (p : List Octet) (s : State) : HeardMove s.line (configureItem p s).1.line := by
  refine .kept ?_
  unfold configureItem
  split
  · split_ifs <;> rfl
  · rfl

theorem startStation_move (s : State) : HeardMove s.line (startStation s).1.line := by
  unfold startStation
  split
  · exact .kept rfl
  · exact .emptied rfl

theorem execPortCommand_move (c : PortCommand) (p : SelectPeriod) {s t : State}
    (hexec : execPortCommand c p s = .next t) : HeardMove s.line t.line := by
  cases c <;> obtain rfl := Host.Outcome.next.inj hexec
  case configure => exact selectCommand_move (configureItem_move p.params) s
  case start => exact selectCommand_move startStation_move s
  case restart => exact selectCommand_move (fun _ => .emptied rfl) s
  case readStatus => exact selectCommand_move_of_line (fun _ => rfl) s
  case takeEvents => exact selectCommand_move_of_line (takeOldest_line _) s
  case peekEvent => exact selectCommand_move_of_line (peekAt_line _) s
  case takeDeviation => exact selectCommand_move_of_line takeHead_line s
  case loadEntry => exact selectCommand_move_of_line (withSlot_line (fun slot => loadSlot_line slot _) _) s
  case cancelEntry => exact selectCommand_move_of_line (withSlot_line cancelAt_line _) s
  case readEntry => exact selectCommand_move_of_line (withSlot_line (fun _ _ => rfl) _) s
  case readHeard => exact selectCommand_move_of_line (readOrigin_line _) s
  case clearUrgent => exact selectCommand_move_of_line (clearConditions_line _) s
  case setTime => exact selectCommand_move_of_line (setTimeTo_line _) s
  case setDial => exact selectCommand_move_of_line (setDialTo_line _ _) s

theorem execUnknownCommand_move (octets : List Octet) (early : Bool) {s t : State}
    (hexec : execUnknownCommand octets early s = .next t) : HeardMove s.line t.line := by
  unfold execUnknownCommand at hexec
  split at hexec
  · exact execPortCommand_move _ _ hexec
  · split_ifs at hexec
    · obtain rfl := Host.Outcome.next.inj hexec
      exact .kept (congrArg _ (answerOnlySelectPeriod_line 0 early s))
    · obtain rfl := Host.Outcome.next.inj hexec
      exact selectCommand_move_of_line (fun _ => rfl) s

/-! ## Every command -/

theorem exec_heardMove {c : Instr} {s t : State} (hexec : exec c s = .next t) : HeardMove s.line t.line := by
  cases c with
  | unknownCommand octets early => exact execUnknownCommand_move octets early hexec
  | configure p => exact execPortCommand_move .configure p hexec
  | start p => exact execPortCommand_move .start p hexec
  | restart p => exact execPortCommand_move .restart p hexec
  | readStatus p => exact execPortCommand_move .readStatus p hexec
  | takeEvents p => exact execPortCommand_move .takeEvents p hexec
  | peekEvent p => exact execPortCommand_move .peekEvent p hexec
  | takeDeviation p => exact execPortCommand_move .takeDeviation p hexec
  | loadEntry p => exact execPortCommand_move .loadEntry p hexec
  | cancelEntry p => exact execPortCommand_move .cancelEntry p hexec
  | readEntry p => exact execPortCommand_move .readEntry p hexec
  | readHeard p => exact execPortCommand_move .readHeard p hexec
  | clearUrgent p => exact execPortCommand_move .clearUrgent p hexec
  | setTime p => exact execPortCommand_move .setTime p hexec
  | setDial p => exact execPortCommand_move .setDial p hexec
  | powerOn => exact Host.Outcome.next.inj hexec ▸ .emptied rfl
  | receiveTimeFrame f => exact Host.Outcome.next.inj hexec ▸ frameEnds_move (endTimeFrame_move f s)
  | receiveNotice f => exact Host.Outcome.next.inj hexec ▸ frameEnds_move (endNotice_move f s)
  | receivePresence f => exact Host.Outcome.next.inj hexec ▸ frameEnds_move (endPresence_move f s)
  | silenceExpiry peer => exact Host.Outcome.next.inj hexec ▸ HeardMove.of_due (.silenced peer rfl)
  | presenceDue => exact Host.Outcome.next.inj hexec ▸ HeardMove.of_due (.kept (queuePresence_heard _ _))
  | frameOutcome how =>
    obtain rfl := Host.Outcome.next.inj hexec
    split
    · exact .kept (endOwnFrame_heard how _ s)
    · exact .kept rfl
  | receiveBadFrame why => exact Host.Outcome.next.inj hexec ▸ HeardMove.of_due (.kept (endBadFrame_heard why s))
  | settleExpiry terminal =>
    obtain rfl := Host.Outcome.next.inj hexec
    split
    · exact HeardMove.of_due (.kept (settle_heard terminal _ s))
    · exact .kept rfl
  | qualificationEnd => exact Host.Outcome.next.inj hexec ▸ HeardMove.of_due (.kept (by simp))
  | secondMark => exact Host.Outcome.next.inj hexec ▸ .kept (by simp)
  | correctionSecondEnd => exact Host.Outcome.next.inj hexec ▸ HeardMove.of_due (.kept rfl)
  | holdoverEntry => exact Host.Outcome.next.inj hexec ▸ HeardMove.of_due (.kept (by simp))
  | beginReadyFrame =>
    obtain rfl := Host.Outcome.next.inj hexec
    split
    · exact HeardMove.of_due (.kept rfl)
    · exact .kept rfl
  | silenceTimerExpiry => exact Host.Outcome.next.inj hexec ▸ HeardMove.of_due (.kept (by simp))
  | holdoverAging => exact Host.Outcome.next.inj hexec ▸ HeardMove.of_due (.kept rfl)
  | referencePulse =>
    obtain rfl := Host.Outcome.next.inj hexec
    refine .kept ?_
    split
    · split_ifs <;> simp
    · rfl
  | referenceLoss => exact Host.Outcome.next.inj hexec ▸ HeardMove.of_due (.kept (by simp))
  | edge terminal level => exact Host.Outcome.next.inj hexec ▸ .kept (by simp)
  | limitExpiry pair => exact Host.Outcome.next.inj hexec ▸ HeardMove.of_due (.kept (by simp))
  | openFire => exact Host.Outcome.next.inj hexec ▸ HeardMove.of_due (.kept (by simp))
  | missFire => exact Host.Outcome.next.inj hexec ▸ HeardMove.of_due (.kept (by simp))
  | supplyChange supply =>
    obtain rfl := Host.Outcome.next.inj hexec
    refine .kept ?_
    split_ifs <;> simp
  | stepBoundary line => exact Host.Outcome.next.inj hexec ▸ .kept (by simp)
  | pulseStart line => exact Host.Outcome.next.inj hexec ▸ .kept (by simp)
  | pulseEnd line =>
    obtain rfl := Host.Outcome.next.inj hexec
    refine .kept ?_
    split <;> simp
  | dominantLeadIn mark =>
    obtain rfl := Host.Outcome.next.inj hexec
    refine .kept ?_
    split_ifs
    · rfl
    · split <;> rfl
  | lineIdle =>
    obtain rfl := Host.Outcome.next.inj hexec
    refine .kept ?_
    split_ifs
    · rfl
    · split <;> rfl
  | answerOnlySelectPeriod octets early =>
    exact Host.Outcome.next.inj hexec ▸ .kept (congrArg _ (answerOnlySelectPeriod_line octets early s))

theorem step_heardMove {s t : State} (hstep : step s = .next t) : HeardMove s.line t.line := by
  unfold step at hstep
  split at hstep
  · next rest _ => exact exec_heardMove (s := { s with pending := rest }) hstep
  · obtain rfl := Host.Outcome.next.inj hstep
    exact .kept (congrArg _ (idleStep_line s))

/-! ## SILENCE_EXPIRY -/

theorem exec_silenceExpiry_of_due {s : State} {k : Fin 62} (h : silenceDue s k = true) :
    exec (.silenceExpiry k) s = .next (setHeard k (fallSilent s.line.heard[k]) s) :=
  congrArg _ (if_pos h)

theorem exec_silenceExpiry_of_not_due {s : State} {k : Fin 62} (h : ¬ silenceDue s k = true) :
    exec (.silenceExpiry k) s = .next s :=
  congrArg _ (if_neg h)

/-- The expiry of a PRESENT entry of a station in RUN, reached (R119). -/
theorem silenceDue_iff (s : State) (k : Fin 62) :
    silenceDue s k = true ↔ s.port.station = .run ∧ s.line.heard[k].presence = .present ∧
      ∃ due, s.line.heard[k].silenceExpiry = some due ∧ reached s.time.elapsed due = true := by
  unfold silenceDue inRun
  cases s.line.heard[k].silenceExpiry <;> simp [and_assoc]

/-- Settles O33: every command's change of the heard table keeps it legal; the expiry at and before its point, and the
good frames that renew it. -/
theorem silenceExpiryTurnsAnEntrySilent : Obligations.SilenceExpiryTurnsAnEntrySilent := by
  refine ⟨fun s t hl hstep => (step_heardMove hstep).heardLegal hl, fun s k hs =>
    ⟨fun due hdue hpresent hreached => ?expires, fun h => ?stays, fun hcan =>
      ⟨fun f hgood hk => ?notice, fun f hgood hk => ?presence⟩, fun hcan f hgood hk => ?time⟩⟩
  case expires => exact exec_silenceExpiry_of_due ((silenceDue_iff s k).mpr ⟨hs, hpresent, due, hdue, hreached⟩)
  case stays =>
    refine exec_silenceExpiry_of_not_due fun hdue => ?_
    obtain ⟨-, hpresent, due, hexpiry, hreached⟩ := (silenceDue_iff s k).mp hdue
    rcases h with hnot | ⟨ahead, hahead, hnot⟩
    · exact hnot hpresent
    · obtain rfl := Option.some.inj (hahead.symm.trans hexpiry)
      simp [hreached] at hnot
  case notice => exact ⟨_, exec_receiveNotice hs hcan hgood, (endNotice_renews hs hk).entry⟩
  case presence => exact ⟨_, exec_receivePresence hs hcan hgood, (endPresence_renews hs hk).entry⟩
  case time => exact ⟨_, exec_receiveTimeFrame hs hcan hgood, (endTimeFrame_renews hs hk).entry⟩

end Sys2Proof.Machine

/-! # CONFIGURE (R127, R166, R169, R189, R190, R198) -/

namespace Sys2Proof.Machine

/-! ## A number read and judged -/

/-- A number taken where a test of it holds. -/
theorem ite_some_eq_some_iff {p : Nat → Prop} [DecidablePred p] {n m : Nat} :
    (if p n then some n else none) = some m ↔ n = m ∧ p m := by
  rw [Option.ite_none_right_eq_some, Option.some.injEq, and_comm]
  exact and_congr_right fun h => h ▸ Iff.rfl

theorem within_eq_some_iff {lo hi n m : Nat} : within lo hi n = some m ↔ n = m ∧ lo ≤ m ∧ m ≤ hi :=
  ite_some_eq_some_iff (p := fun n => lo ≤ n ∧ n ≤ hi)

theorem stepPeriod_eq_some_iff {n m : Nat} : stepPeriod n = some m ↔ n = m ∧ (m = 30 ∨ m = 60) :=
  ite_some_eq_some_iff (p := fun n => n = 30 ∨ n = 60)

theorem pulseWidth_eq_some_iff {n m : Nat} :
    pulseWidth n = some m ↔ n = m ∧ 100 ≤ m ∧ m ≤ 2000 ∧ m % 10 = 0 :=
  ite_some_eq_some_iff (p := fun n => 100 ≤ n ∧ n ≤ 2000 ∧ n % 10 = 0)

theorem place_eq_some_iff {k n : Nat} {i : Fin k} : place k n = some i ↔ n = i.val := by
  unfold place
  split_ifs with h
  · simp [Fin.ext_iff]
  · simp only [false_iff]
    exact fun he => h (he ▸ i.isLt)

theorem placeFromOne_eq_some_iff {k n : Nat} {i : Fin k} : placeFromOne k n = some i ↔ n = i.val + 1 := by
  unfold placeFromOne
  split_ifs with h
  · rw [place_eq_some_iff]
    omega
  · simp only [false_iff]
    omega

theorem sixBits_eq_some_iff {n : Nat} {b : BitVec 6} : sixBits n = some b ↔ n = b.toNat := by
  have hb := b.isLt
  unfold sixBits
  simp only [Option.map_eq_some_iff, within_eq_some_iff]
  constructor
  · rintro ⟨m, ⟨rfl, -, hm⟩, rfl⟩
    simp only [BitVec.toNat_ofNat]
    omega
  · rintro rfl
    exact ⟨b.toNat, ⟨rfl, by omega, by omega⟩, by simp⟩

theorem noticeClassOfCode_eq_some_iff {n : Nat} {c : NoticeClass} :
    noticeClassOfCode n = some c ↔ n = (match c with | .none => 0 | .normal => 1 | .urgent => 2) := by
  unfold noticeClassOfCode
  split <;> cases c <;> simp_all

theorem offerOfCode_eq_some_iff {n : Nat} {offer : Bool} :
    offerOfCode n = some offer ↔ n = if offer = true then 0 else 1 := by
  unfold offerOfCode
  split <;> cases offer <;> simp_all

/-! ## The values of an item (R189, R198)

Each by the code in its first value octet. -/

theorem terminalValue_eq_some_iff (t : Fin 40) {v : List Octet} {x : Terminal} :
    terminalValue v = some x ↔ ItemLayout 7 t.val v (.terminal t x) ∧ ItemLegal (.terminal t x) := by
  unfold terminalValue
  split
  case h_2 hcode =>
    simp only [Option.bind_eq_bind, Option.bind_eq_some_iff, Option.pure_def, Option.some.injEq, within_eq_some_iff,
      noticeClassOfCode_eq_some_iff]
    cases x with
    | input settle cls priority =>
      constructor
      · rintro ⟨_, ⟨hsettle, hlow, hhigh⟩, _, hcls, _, ⟨hpriority, -, hmost⟩, ⟨⟩⟩
        exact ⟨⟨rfl, rfl, hcode, hsettle, hcls, hpriority⟩, hlow, hhigh, hmost⟩
      · rintro ⟨⟨-, -, -, hsettle, hcls, hpriority⟩, hlow, hhigh, hmost⟩
        exact ⟨_, ⟨hsettle, hlow, hhigh⟩, _, hcls, _, ⟨hpriority, Nat.zero_le _, hmost⟩, rfl⟩
    | _ => simp [ItemLayout, hcode]
  all_goals cases x <;> simp_all [ItemLayout, ItemLegal]

theorem pairValue_eq_some_iff (k : Fin 8) {v : List Octet} {x : Option PairConfig} :
    pairValue v = some x ↔ ItemLayout 8 (k.val + 1) v (.pair k x) ∧ ItemLegal (.pair k x) := by
  unfold pairValue
  split
  case h_2 hcode =>
    simp only [Option.bind_eq_bind, Option.bind_eq_some_iff, Option.pure_def, Option.some.injEq, within_eq_some_iff,
      place_eq_some_iff]
    cases x with
    | some c =>
      constructor
      · rintro ⟨_, hdrive, _, hdetection, _, ⟨hlimit, hlow, hhigh⟩, ⟨⟩⟩
        exact ⟨⟨rfl, rfl, hcode, hdrive, hdetection, hlimit⟩, hlow, hhigh⟩
      · rintro ⟨⟨-, -, -, hdrive, hdetection, hlimit⟩, hlow, hhigh⟩
        exact ⟨_, hdrive, _, hdetection, _, ⟨hlimit, hlow, hhigh⟩, rfl⟩
    | none => simp [ItemLayout, hcode]
  all_goals cases x <;> simp_all [ItemLayout, ItemLegal]

theorem clockValue_eq_some_iff (k : Fin 4) {v : List Octet} {x : Option ClockConfig} :
    clockValue v = some x ↔ ItemLayout 9 (k.val + 1) v (.line k x) ∧ ItemLegal (.line k x) := by
  unfold clockValue
  split
  case h_2 hcode =>
    simp only [Option.bind_eq_bind, Option.bind_eq_some_iff, Option.pure_def, Option.some.injEq, within_eq_some_iff,
      place_eq_some_iff, stepPeriod_eq_some_iff, pulseWidth_eq_some_iff]
    cases x with
    | some c =>
      constructor
      · rintro ⟨_, ha, _, hb, _, hproving, _, ⟨hstep, hperiod⟩, _, ⟨hwidth, hnarrow, hwide, htens⟩, _,
          ⟨hspacing, hleast, hmost⟩, _, ⟨hhold, -, hlongest⟩, ⟨⟩⟩
        exact ⟨⟨rfl, rfl, hcode, ha, hb, hproving, hstep, hwidth, hspacing, hhold⟩, hperiod, hnarrow, hwide, htens,
          hleast, hmost, hlongest⟩
      · rintro ⟨⟨-, -, -, ha, hb, hproving, hstep, hwidth, hspacing, hhold⟩, hperiod, hnarrow, hwide, htens, hleast,
          hmost, hlongest⟩
        exact ⟨_, ha, _, hb, _, hproving, _, ⟨hstep, hperiod⟩, _, ⟨hwidth, hnarrow, hwide, htens⟩, _,
          ⟨hspacing, hleast, hmost⟩, _, ⟨hhold, Nat.zero_le _, hlongest⟩, rfl⟩
    | none => simp [ItemLayout, hcode]
  all_goals cases x <;> simp_all [ItemLayout, ItemLegal]

theorem acceptValue_eq_some_iff (k : Fin 16) {v : List Octet} {x : Option AcceptEntry} :
    acceptValue v = some x ↔ ItemLayout 10 k.val v (.accept k x) ∧ ItemLegal (.accept k x) := by
  unfold acceptValue
  split
  case h_2 hcode =>
    simp only [Option.bind_eq_bind, Option.bind_eq_some_iff, Option.pure_def, Option.some.injEq, sixBits_eq_some_iff,
      offerOfCode_eq_some_iff]
    cases x with
    | some a =>
      constructor
      · rintro ⟨_, hov, _, hom, _, hcv, _, hcm, _, hoffer, ⟨⟩⟩
        exact ⟨⟨rfl, rfl, hcode, hov, hom, hcv, hcm, hoffer⟩, trivial⟩
      · rintro ⟨⟨-, -, -, hov, hom, hcv, hcm, hoffer⟩, -⟩
        exact ⟨_, hov, _, hom, _, hcv, _, hcm, _, hoffer, rfl⟩
    | none => simp [ItemLayout, hcode]
  all_goals cases x <;> simp_all [ItemLayout, ItemLegal]

/-! ## The item that class, index and value octets give (R189, R190) -/

theorem ItemLayout.header {cls index : Nat} {v : List Octet} {i : ImageItem} (h : ItemLayout cls index v i) :
    cls = itemClass i ∧ index = itemIndex i := by
  cases i with
  | terminal t x => cases x <;> exact ⟨h.1, h.2.1⟩
  | pair k x => cases x <;> exact ⟨h.1, h.2.1⟩
  | line k x => cases x <;> exact ⟨h.1, h.2.1⟩
  | accept k x => cases x <;> exact ⟨h.1, h.2.1⟩
  | _ => exact ⟨h.1, h.2.1⟩

theorem imageItem_header {cls index : Nat} {v : List Octet} {i : ImageItem} (h : imageItem cls index v = some i) :
    cls = itemClass i ∧ index = itemIndex i := by
  unfold imageItem at h
  split at h
  all_goals
    simp only [Option.bind_eq_bind, Option.bind_eq_some_iff, Option.pure_def, Option.some.injEq, place_eq_some_iff,
      placeFromOne_eq_some_iff, Option.ite_none_right_eq_some, Option.map_eq_some_iff, reduceCtorEq] at h
  case h_7 | h_8 | h_9 | h_10 =>
    obtain ⟨k, hk, x, -, rfl⟩ := h
    exact ⟨rfl, hk⟩
  all_goals
    obtain ⟨hindex, n, -, rfl⟩ := h
    exact ⟨rfl, hindex⟩

/-- The octets under the class and the index of an item give it as R198 lays it out, within its ranges. -/
theorem imageItem_own_eq_some_iff (v : List Octet) (i : ImageItem) :
    imageItem (itemClass i) (itemIndex i) v = some i ↔
      ItemLayout (itemClass i) (itemIndex i) v i ∧ ItemLegal i := by
  cases i with
  | terminal t x =>
    have hplace : place 40 t.val = some t := place_eq_some_iff.mpr rfl
    simpa [imageItem, itemClass, itemIndex, hplace, Option.bind_eq_some_iff] using terminalValue_eq_some_iff t
  | pair k x =>
    have hplace : placeFromOne 8 (k.val + 1) = some k := placeFromOne_eq_some_iff.mpr rfl
    simpa [imageItem, itemClass, itemIndex, hplace, Option.bind_eq_some_iff] using pairValue_eq_some_iff k
  | line k x =>
    have hplace : placeFromOne 4 (k.val + 1) = some k := placeFromOne_eq_some_iff.mpr rfl
    simpa [imageItem, itemClass, itemIndex, hplace, Option.bind_eq_some_iff] using clockValue_eq_some_iff k
  | accept k x =>
    have hplace : place 16 k.val = some k := place_eq_some_iff.mpr rfl
    simpa [imageItem, itemClass, itemIndex, hplace, Option.bind_eq_some_iff] using acceptValue_eq_some_iff k
  | _ => simp [imageItem, itemClass, itemIndex, ItemLayout, ItemLegal, within_eq_some_iff]

theorem imageItem_eq_some_iff {cls index : Nat} {v : List Octet} {i : ImageItem} :
    imageItem cls index v = some i ↔ ItemLayout cls index v i ∧ ItemLegal i := by
  constructor
  · intro h
    obtain ⟨rfl, rfl⟩ := imageItem_header h
    exact (imageItem_own_eq_some_iff v i).mp h
  · intro h
    obtain ⟨rfl, rfl⟩ := h.1.header
    exact (imageItem_own_eq_some_iff v i).mpr h

/-! ## The item held by a pulse, and the item written (R127, R166, R169, R190) -/

theorem terminalPulsing_iff (t : Fin 40) (s : State) :
    terminalPulsing t s = true ↔
      ∃ (k : Fin 4) (c : ClockConfig), s.clocks[k].pulse ≠ none ∧ s.port.image.lines[k] = some c ∧ LineNames c t := by
  simp only [terminalPulsing, List.any_eq_true, List.mem_finRange, true_and, Bool.and_eq_true,
    Option.isSome_iff_ne_none]
  refine exists_congr fun k => ?_
  cases s.port.image.lines[k] with
  | none => simp [lineNames]
  | some c => simp

theorem itemHeld_iff (i : ImageItem) (s : State) : itemHeld i s = true ↔ ItemHeld s i := by
  cases i with
  | line k x => simp [itemHeld, ItemHeld, Option.isSome_iff_ne_none]
  | terminal t x => simp [itemHeld, ItemHeld, terminalPulsing_iff]
  | _ => simp [itemHeld, ItemHeld]

theorem clocksAfterWrite_line {i : ImageItem} {k : Fin 4} (h : ∃ x, i = .line k x) (clocks : Vector ClockLine 4) :
    (clocksAfterWrite i clocks)[k] = clockLinePowerOn := by
  obtain ⟨x, rfl⟩ := h
  simp [clocksAfterWrite]

theorem clocksAfterWrite_other {i : ImageItem} {k : Fin 4} (h : ¬ ∃ x, i = .line k x) (clocks : Vector ClockLine 4) :
    (clocksAfterWrite i clocks)[k] = clocks[k] := by
  cases i with
  | line j x =>
    have hne : j.val ≠ k.val := fun he => h ⟨x, by rw [Fin.ext he]⟩
    simp [clocksAfterWrite, Vector.getElem_set_ne, hne]
  | _ => rfl

theorem hitsAfterWrite_accept {i : ImageItem} {k : Fin 16} (h : ∃ x, i = .accept k x) (hits : Vector Nat 16) :
    (hitsAfterWrite i hits)[k] = 0 := by
  obtain ⟨x, rfl⟩ := h
  simp [hitsAfterWrite]

theorem hitsAfterWrite_other {i : ImageItem} {k : Fin 16} (h : ¬ ∃ x, i = .accept k x) (hits : Vector Nat 16) :
    (hitsAfterWrite i hits)[k] = hits[k] := by
  cases i with
  | accept j x =>
    have hne : j.val ≠ k.val := fun he => h ⟨x, by rw [Fin.ext he]⟩
    simp [hitsAfterWrite, Vector.getElem_set_ne, hne]
  | _ => rfl

/-! ## The command -/

theorem exec_configure {s : State} {params : List Octet} (hs : s.port.station = .config)
    (hlength : params.length + 1 ≤ 72) (hform : configureForm params = true) :
    exec (.configure { params := params, early := false }) s =
      .next (answered (configureItem params (clockOutAnswer (params.length + 1) s))) :=
  congrArg _ (selectCommand_taken (by simp [hs]) hlength hform (by simp [inConfig, hs]))

theorem configureItem_of_no_item {params : List Octet} {s : State}
    (h : imageItem (field params 0 1) (field params 1 1) (params.drop 2) = none) :
    configureItem params s = refuse .range s := by
  simp [configureItem, h]

theorem configureItem_of_held {params : List Octet} {s : State} {i : ImageItem}
    (h : imageItem (field params 0 1) (field params 1 1) (params.drop 2) = some i) (hheld : ItemHeld s i) :
    configureItem params s = refuse .state s := by
  simp [configureItem, h, (itemHeld_iff i s).mpr hheld]

theorem configureItem_of_free {params : List Octet} {s : State} {i : ImageItem}
    (h : imageItem (field params 0 1) (field params 1 1) (params.drop 2) = some i) (hfree : ¬ ItemHeld s i) :
    configureItem params s = done [] (writeItem i s) := by
  simp [configureItem, h, mt (itemHeld_iff i s).mp hfree]

/-- What goes out at the port holds no item, and frees none (R187, R190). -/
theorem itemHeld_clockOutAnswer (n : Nat) (s : State) (i : ImageItem) :
    ItemHeld (clockOutAnswer n s) i ↔ ItemHeld s i := by
  simp [← itemHeld_iff, itemHeld, terminalPulsing]

/-- Settles O9: octets that give no item, a held item, and the item written with its side effects read off field by
field. -/
theorem configureWritesOneItemWhole : Obligations.ConfigureWritesOneItemWhole := by
  intro s params hs hlength hform
  have hexec := exec_configure hs hlength hform
  refine ⟨fun hnone => ?noItem, fun i hi => ⟨fun hheld => ?held, fun hfree => ?written⟩⟩
  case noItem =>
    refine answersWith_refuse hexec (configureItem_of_no_item ?_)
    exact Option.eq_none_iff_forall_ne_some.mpr fun i => mt imageItem_eq_some_iff.mp (hnone i)
  case held =>
    have hitem := imageItem_eq_some_iff.mpr hi
    exact answersWith_refuse hexec (configureItem_of_held hitem ((itemHeld_clockOutAnswer _ s i).mpr hheld))
  case written =>
    have hitem := imageItem_eq_some_iff.mpr hi
    rw [configureItem_of_free hitem (mt (itemHeld_clockOutAnswer _ s i).mp hfree)] at hexec
    exact ⟨_, hexec, rfl, by cases i <;> rfl, fun k hk => clocksAfterWrite_line hk s.clocks,
      fun k hk => clocksAfterWrite_other hk s.clocks, fun k hk => hitsAfterWrite_accept hk s.line.hits,
      fun k hk => hitsAfterWrite_other hk s.line.hits, rfl, rfl⟩

end Sys2Proof.Machine

/-! # Deviations handed on (R155 to R159, R166) -/

namespace Sys2Proof.Machine

/-! ## The record (R157) -/

theorem undoubtedTimeState_eq (ts : TimeState) :
    undoubtedTimeState ts = decide (ts = .agreed ∨ ts = .referenced) := by cases ts <;> rfl

/-- DOUBT by the two time states, the dater's where an observation is handed (R157). -/
theorem deviationDoubt_eq (own : TimeState) (obs : Option (Matched × TimeState)) :
    deviationDoubt own (obs.map (·.2)) =
      (!decide (own = .agreed ∨ own = .referenced) ||
        (obs.map fun o => !decide (o.2 = .agreed ∨ o.2 = .referenced)).getD false) := by
  cases obs <;> simp [deviationDoubt, undoubtedTimeState_eq]

/-! ## The place by grade (R158) -/

/-- In a queue by grade, the new record stands after every record of its grade or above. -/
theorem insertDeviation_of_ordered {d : Deviation} {l : List Deviation}
    (h : l.Pairwise fun a b => b.grade ≤ a.grade) :
    insertDeviation d l =
      l.filter (fun x => decide (d.grade ≤ x.grade)) ++ d :: l.filter (fun x => decide (x.grade < d.grade)) := by
  induction l with
  | nil => rfl
  | cons e rest ih =>
    obtain ⟨hfirst, hrest⟩ := List.pairwise_cons.mp h
    unfold insertDeviation
    split_ifs with hlower
    · have habove : (e :: rest).filter (fun x => decide (d.grade ≤ x.grade)) = [] := by
        rw [List.filter_eq_nil_iff]
        intro x hx
        rcases List.mem_cons.mp hx with rfl | hx
        · simpa using hlower
        · simpa using (hfirst x hx).trans_lt hlower
      have hbelow : (e :: rest).filter (fun x => decide (x.grade < d.grade)) = e :: rest := by
        rw [List.filter_eq_self]
        intro x hx
        rcases List.mem_cons.mp hx with rfl | hx
        · simpa using hlower
        · simpa using (hfirst x hx).trans_lt hlower
      rw [habove, hbelow, List.nil_append]
    · simp [hlower, Nat.le_of_not_lt hlower, ih hrest]

/-! ## The offer (R159) and ATTENTION (R166) -/

theorem offerDeviation_of_room {d : Deviation} {r : ReportUnit} (h : r.deviations.length < 64) :
    offerDeviation d r = { r with deviations := insertDeviation d r.deviations } := by
  simp [offerDeviation, h]

theorem offerDeviation_of_lower {d last : Deviation} {r : ReportUnit} (h : 64 ≤ r.deviations.length)
    (hlast : r.deviations.getLast? = some last) (hgrade : last.grade < d.grade) :
    offerDeviation d r = { r with
      deviations := insertDeviation d r.deviations.dropLast
      displaced := saturatingAdd 65535 r.displaced 1 } := by
  simp [offerDeviation, Nat.not_lt.mpr h, hlast, hgrade]

theorem offerDeviation_of_not_lower {d last : Deviation} {r : ReportUnit} (h : 64 ≤ r.deviations.length)
    (hlast : r.deviations.getLast? = some last) (hgrade : d.grade ≤ last.grade) :
    offerDeviation d r = { r with displaced := saturatingAdd 65535 r.displaced 1 } := by
  simp [offerDeviation, Nat.not_lt.mpr h, hlast, Nat.not_lt.mpr hgrade]

@[simp] theorem offerDeviation_rest (d : Deviation) (r : ReportUnit) :
    (offerDeviation d r).nextSeq = r.nextSeq ∧ (offerDeviation d r).urgent = r.urgent := by
  rcases offerDeviation_cases d r with ⟨-, h⟩ | ⟨-, _, -, -, h⟩ | ⟨-, _, -, -, h⟩ <;> rw [h] <;> exact ⟨rfl, rfl⟩

theorem attentionCalled_iff (threshold : Nat) (r : ReportUnit) :
    attentionCalled threshold r = true ↔ (∃ k : Fin 7, r.urgent[k].flag = true) ∨
      ∃ d rest, r.deviations = d :: rest ∧ threshold ≤ d.grade := by
  have hurgent : r.urgent.toList.any (·.flag) = true ↔ ∃ k : Fin 7, r.urgent[k].flag = true := by
    simp [Fin.exists_iff, Vector.any_eq_true]
  unfold attentionCalled
  rw [Bool.or_eq_true, hurgent]
  refine or_congr_right ?_
  cases r.deviations <;> simp

/-- Settles O47: the record as it is made, then the three cases of its offer. -/
theorem deviationsAreMadeAndPlacedByGrade : Obligations.DeviationsAreMadeAndPlacedByGrade := by
  intro kind slot e due obs s r settled record place t
  let counted : ReportUnit := { r with nextSeq := r.nextSeq + 1 }
  have hreport : t.report = refreshAttention s.port.image.attention (offerDeviation record counted) := by
    simp only [t, record, counted, settled, r, handDeviation, deviationDoubt_eq]
  have hoffer : t.report.deviations = (offerDeviation record counted).deviations ∧
      t.report.displaced = (offerDeviation record counted).displaced := by simp [hreport]
  obtain ⟨hdeviations, hdisplaced⟩ := hoffer
  rw [hdeviations, hdisplaced]
  refine ⟨rfl, ?seq, ?urgent, ?attention, fun hroom hordered => ?room, fun hfull last hlast => ?full⟩
  case seq => simp [hreport, counted]
  case urgent => simp [hreport, counted]
  case attention =>
    simpa [hreport, counted] using attentionCalled_iff s.port.image.attention (offerDeviation record counted)
  case room =>
    rw [offerDeviation_of_room (r := counted) hroom]
    exact ⟨insertDeviation_of_ordered hordered, rfl⟩
  case full =>
    rcases Nat.lt_or_ge last.grade e.grade with hlower | hnot
    · rw [offerDeviation_of_lower (d := record) (r := counted) hfull hlast hlower]
      exact ⟨rfl, fun _ hordered => insertDeviation_of_ordered (hordered.sublist (List.dropLast_sublist _)),
        fun hnot => absurd hlower (Nat.not_lt.mpr hnot)⟩
    · rw [offerDeviation_of_not_lower (d := record) (r := counted) hfull hlast hnot]
      exact ⟨rfl, fun hlower => absurd hlower (Nat.not_lt.mpr hnot), fun _ => rfl⟩

end Sys2Proof.Machine

/-! # Chains: VOID down every chain, PENDING with the dues (R142, R143) -/

namespace Sys2Proof.Machine

/-! ## Entries that become VOID (R143) -/

/-- No entry is WAITING on the slot. -/
def NoneWaitsOn (slot : Fin 256) (v : Vector (Option CheckEntry) 256) : Prop :=
  ∀ (j : Fin 256) (e : CheckEntry), v[j] = some e → e.status = .waiting → e.predecessor ≠ some slot

/-- From `v` to `w` a slot keeps its entry, or its WAITING entry becomes VOID behind the slot given or behind an entry
that became VOID too. -/
def ChainVoids (slot : Fin 256) (v w : Vector (Option CheckEntry) 256) : Prop :=
  ∀ j : Fin 256, w[j] = v[j] ∨ ∃ e p, v[j] = some e ∧ e.status = .waiting ∧
    w[j] = some { e with status := .void } ∧ e.predecessor = some p ∧ (p = slot ∨ w[p] ≠ v[p])

/-- No entry is left WAITING on one that became VOID. -/
def ChainClosed (v w : Vector (Option CheckEntry) 256) : Prop := ∀ p : Fin 256, w[p] ≠ v[p] → NoneWaitsOn p w

theorem ChainVoids.refl (slot : Fin 256) (v : Vector (Option CheckEntry) 256) : ChainVoids slot v v :=
  fun _ => .inl rfl

theorem ChainClosed.refl (v : Vector (Option CheckEntry) 256) : ChainClosed v v := fun _ h => absurd rfl h

section

variable {slot : Fin 256} {u v w : Vector (Option CheckEntry) 256}

/-- An entry that is not WAITING stays as it is. -/
theorem ChainVoids.keeps (h : ChainVoids slot v w) {j : Fin 256} {e : CheckEntry} (he : v[j] = some e)
    (hs : e.status ≠ .waiting) : w[j] = some e := by
  rcases h j with heq | ⟨e', -, he', hw, -⟩
  · exact heq.trans he
  · obtain rfl : e = e' := Option.some.inj (he.symm.trans he')
    exact absurd hw hs

/-- An entry left WAITING was there before. -/
theorem ChainVoids.waiting_before (h : ChainVoids slot v w) {j : Fin 256} {e : CheckEntry} (he : w[j] = some e)
    (hs : e.status = .waiting) : v[j] = some e := by
  rcases h j with heq | ⟨e', -, -, -, hvoid, -⟩
  · exact heq.symm.trans he
  · obtain rfl : e = _ := Option.some.inj (he.symm.trans hvoid)
    simp at hs

theorem ChainVoids.noneWaitsOn {p : Fin 256} (h : ChainVoids slot v w) (hv : NoneWaitsOn p v) : NoneWaitsOn p w :=
  fun j e he hs => hv j e (h.waiting_before he hs) hs

/-- A slot that has changed changes no more. -/
theorem ChainVoids.changed_once (huv : ChainVoids slot u v) (hvw : ChainVoids slot v w) {p : Fin 256}
    (h : v[p] ≠ u[p]) : w[p] = v[p] := by
  rcases huv p with heq | ⟨e, -, -, -, hvoid, -⟩
  · exact absurd heq h
  · exact (hvw.keeps hvoid (by simp)).trans hvoid.symm

theorem ChainVoids.trans (huv : ChainVoids slot u v) (hvw : ChainVoids slot v w) : ChainVoids slot u w := by
  intro j
  rcases hvw j with heq | ⟨e, p, he, hw, hvoid, hp, hcause⟩
  · rcases huv j with heq' | ⟨e, p, he, hw, hvoid, hp, hcause⟩
    · exact .inl (heq.trans heq')
    · refine .inr ⟨e, p, he, hw, heq.trans hvoid, hp, hcause.imp_right fun hne => ?_⟩
      rwa [huv.changed_once hvw hne]
  · refine .inr ⟨e, p, huv.waiting_before he hw, hw, hvoid, hp, hcause.imp_right fun hne hback => hne ?_⟩
    by_contra hne'
    by_cases hsame : v[p] = u[p]
    · exact hne (hback.trans hsame.symm)
    · exact hne (huv.changed_once hvw hsame)

theorem ChainClosed.trans (huv : ChainClosed u v) (hvw : ChainClosed v w) (h : ChainVoids slot v w) :
    ChainClosed u w := by
  intro p hp
  by_cases hsame : w[p] = v[p]
  · exact h.noneWaitsOn (huv p (hsame ▸ hp))
  · exact hvw p hsame

end

/-! ## One place of the table set -/

theorem slots_set_self (v : Vector (Option CheckEntry) 256) (j : Fin 256) (x : Option CheckEntry) :
    (v.set j x)[j] = x := by simp

theorem slots_set_ne {j k : Fin 256} (h : k ≠ j) (v : Vector (Option CheckEntry) 256) (x : Option CheckEntry) :
    (v.set j x)[k] = v[k] := by
  have hne : (j : Nat) ≠ k := fun he => h (Fin.ext he.symm)
  simp [Vector.getElem_set_ne, hne]

/-- A successor made VOID, and then its own chain, is one chain. -/
theorem chainVoids_of_successor {slot j : Fin 256} {v w : Vector (Option CheckEntry) 256} {e : CheckEntry}
    (he : v[j] = some e) (hs : e.status = .waiting) (hp : e.predecessor = some slot)
    (h : ChainVoids j (v.set j (some { e with status := .void })) w) : ChainVoids slot v w := by
  have hj : w[j] = some { e with status := .void } := h.keeps (slots_set_self v j _) (by simp)
  have hchanged : w[j] ≠ v[j] := by
    rw [hj, he]
    intro heq
    have hstatus : EntryStatus.void = e.status := congrArg CheckEntry.status (Option.some.inj heq)
    simp [← hstatus] at hs
  intro k
  by_cases hk : k = j
  · subst hk
    exact .inr ⟨e, slot, he, hs, hj, hp, .inl rfl⟩
  · have hother := h k
    rw [slots_set_ne hk] at hother
    refine hother.imp_right ?_
    rintro ⟨e', p, he', hw, hvoid, hpred, hcause⟩
    refine ⟨e', p, he', hw, hvoid, hpred, .inr ?_⟩
    by_cases hpj : p = j
    · exact hpj ▸ hchanged
    · rw [← slots_set_ne hpj v (some { e with status := .void })]
      exact hcause.resolve_left hpj

theorem chainClosed_of_successor {j : Fin 256} {v w : Vector (Option CheckEntry) 256} {x : Option CheckEntry}
    (h : ChainClosed (v.set j x) w) (hj : NoneWaitsOn j w) : ChainClosed v w := by
  intro p hp
  by_cases hpj : p = j
  · exact hpj ▸ hj
  · rw [← slots_set_ne hpj v x] at hp
    exact h p hp

/-! ## The depth of a chain -/

/-- The slots whose entry is WAITING. -/
def waitingSlots (v : Vector (Option CheckEntry) 256) : Finset (Fin 256) :=
  Finset.univ.filter fun j => v[j].any (fun e => e.status == .waiting) = true

theorem mem_waitingSlots {v : Vector (Option CheckEntry) 256} {j : Fin 256} :
    j ∈ waitingSlots v ↔ ∃ e, v[j] = some e ∧ e.status = .waiting := by
  simp [waitingSlots, Option.any_eq_true]

theorem ChainVoids.waitingSlots_subset {slot : Fin 256} {v w : Vector (Option CheckEntry) 256}
    (h : ChainVoids slot v w) : waitingSlots w ⊆ waitingSlots v := by
  intro j hj
  obtain ⟨e, he, hs⟩ := mem_waitingSlots.mp hj
  exact mem_waitingSlots.mpr ⟨e, h.waiting_before he hs, hs⟩

theorem waitingSlots_void_card_lt {v : Vector (Option CheckEntry) 256} {j : Fin 256} {e : CheckEntry}
    (he : v[j] = some e) (hs : e.status = .waiting) :
    (waitingSlots (v.set j (some { e with status := .void }))).card < (waitingSlots v).card := by
  refine Finset.card_lt_card ((Finset.ssubset_iff_of_subset fun k hk => ?_).mpr
    ⟨j, mem_waitingSlots.mpr ⟨e, he, hs⟩, fun hj => ?_⟩)
  · obtain ⟨e', he', hs'⟩ := mem_waitingSlots.mp hk
    by_cases hkj : k = j
    · exact hkj ▸ mem_waitingSlots.mpr ⟨e, he, hs⟩
    · rw [slots_set_ne hkj] at he'
      exact mem_waitingSlots.mpr ⟨e', he', hs'⟩
  · obtain ⟨e', he', hs'⟩ := mem_waitingSlots.mp hj
    rw [slots_set_self] at he'
    simp [← Option.some.inj he'] at hs'

/-! ## The chain whole -/

/-- One slot of a pass over the table: a WAITING successor becomes VOID with its own chain. -/
def chainStep (depth : Nat) (slot : Fin 256) (v : Vector (Option CheckEntry) 256) (j : Fin 256) :
    Vector (Option CheckEntry) 256 :=
  match v[j] with
  | some e => if waitingOn slot e then voidChain depth j (v.set j (some { e with status := .void })) else v
  | none => v

theorem voidChain_succ (depth : Nat) (slot : Fin 256) (v : Vector (Option CheckEntry) 256) :
    voidChain (depth + 1) slot v = allSlots.foldl (chainStep depth slot) v := rfl

theorem waitingOn_iff {slot : Fin 256} {e : CheckEntry} :
    waitingOn slot e = true ↔ e.status = .waiting ∧ e.predecessor = some slot := by
  simp [waitingOn]

/-- To that depth the chains of a table with no more WAITING entries are followed to their end. -/
def FollowsChains (depth : Nat) : Prop :=
  ∀ (slot : Fin 256) (v : Vector (Option CheckEntry) 256), (waitingSlots v).card ≤ depth →
    ChainVoids slot v (voidChain depth slot v) ∧ ChainClosed v (voidChain depth slot v) ∧
      NoneWaitsOn slot (voidChain depth slot v)

/-- One slot of a pass: a chain of entries VOID, closed, and the slot's own entry not left WAITING. -/
theorem chainStep_spec {depth : Nat} {slot j : Fin 256} {v : Vector (Option CheckEntry) 256}
    (hchain : FollowsChains depth) (hdepth : (waitingSlots v).card ≤ depth + 1) :
    ChainVoids slot v (chainStep depth slot v j) ∧ ChainClosed v (chainStep depth slot v j) ∧
      ∀ e, (chainStep depth slot v j)[j] = some e → e.status = .waiting → e.predecessor ≠ some slot := by
  unfold chainStep
  split
  · next e he =>
    split_ifs with hon
    · obtain ⟨hs, hp⟩ := waitingOn_iff.mp hon
      have hless := waitingSlots_void_card_lt he hs
      obtain ⟨hvoids, hclosed, hnone⟩ := hchain j (v.set j (some { e with status := .void })) (by omega)
      refine ⟨chainVoids_of_successor he hs hp hvoids, chainClosed_of_successor hclosed hnone, fun e' he' hs' => ?_⟩
      have hj := hvoids.keeps (slots_set_self v j _) (by simp)
      simp [← Option.some.inj (hj.symm.trans he')] at hs'
    · refine ⟨.refl _ _, .refl _, fun e' he' hs' hp' => hon (waitingOn_iff.mpr ?_)⟩
      obtain rfl : e = e' := Option.some.inj (he.symm.trans he')
      exact ⟨hs', hp'⟩
  · next he => exact ⟨.refl _ _, .refl _, fun e' he' => by simp [he] at he'⟩

/-- A pass over a list of slots leaves none of their entries WAITING on the slot. -/
theorem chainSteps_spec {depth : Nat} {slot : Fin 256} (hchain : FollowsChains depth) (l : List (Fin 256))
    (v : Vector (Option CheckEntry) 256) (hdepth : (waitingSlots v).card ≤ depth + 1) :
    ChainVoids slot v (l.foldl (chainStep depth slot) v) ∧ ChainClosed v (l.foldl (chainStep depth slot) v) ∧
      ∀ j ∈ l, ∀ e, (l.foldl (chainStep depth slot) v)[j] = some e → e.status = .waiting →
        e.predecessor ≠ some slot := by
  induction l generalizing v with
  | nil => exact ⟨.refl _ _, .refl _, by simp⟩
  | cons k rest ih =>
    obtain ⟨hvoids, hclosed, hk⟩ := chainStep_spec (slot := slot) (j := k) hchain hdepth
    obtain ⟨hvoids', hclosed', hall⟩ :=
      ih (chainStep depth slot v k) ((Finset.card_le_card hvoids.waitingSlots_subset).trans hdepth)
    refine ⟨hvoids.trans hvoids', hclosed.trans hclosed' hvoids', fun j hj e he hs => ?_⟩
    rcases List.mem_cons.mp hj with rfl | hj
    · exact hk e (hvoids'.waiting_before he hs) hs
    · exact hall j hj e he hs

theorem voidChain_follows (depth : Nat) : FollowsChains depth := by
  induction depth with
  | zero =>
    refine fun slot v hdepth => ⟨.refl _ _, .refl _, fun j e he hs => ?_⟩
    have hempty : waitingSlots v = ∅ := Finset.card_eq_zero.mp (Nat.le_zero.mp hdepth)
    have hmem : j ∈ waitingSlots v := mem_waitingSlots.mpr ⟨e, he, hs⟩
    simp [hempty] at hmem
  | succ depth ih =>
    intro slot v hdepth
    obtain ⟨hvoids, hclosed, hall⟩ := chainSteps_spec (slot := slot) ih allSlots v hdepth
    exact ⟨hvoids, hclosed, fun j => hall j (List.mem_finRange j)⟩

theorem voidSuccessors_spec (slot : Fin 256) (c : Checker) :
    ChainVoids slot c.slots (voidSuccessors slot c).slots ∧ ChainClosed c.slots (voidSuccessors slot c).slots ∧
      NoneWaitsOn slot (voidSuccessors slot c).slots := by
  have hdepth : (waitingSlots c.slots).card ≤ 256 := by simpa using Finset.card_le_univ (waitingSlots c.slots)
  rw [show (voidSuccessors slot c).slots = voidChain 256 slot c.slots by simp only [voidSuccessors]]
  exact voidChain_follows 256 slot c.slots hdepth

/-! ## Successors that become PENDING (R142) -/

/-- The due date that the date of a predecessor's matched observation gives (R134). -/
def dueFrom (base : Date) : DueKind → Date
  | .absolute d => d
  | .relative ms => dateAdd base ((ms * 1000 : Nat) : Int)

theorem dueDate_some (kind : DueKind) (base : Date) : dueDate kind (some base) = some (dueFrom base kind) := by
  cases kind <;> rfl

/-- One slot of the pass that releases successors. -/
def successorStep (img : Image) (slot : Fin 256) (base : Date) (c : Checker) (j : Fin 256) : Checker :=
  match c.slots[j] with
  | some e => if waitingOn slot e then makePending img j e (dueFrom base e.dueKind) c else c
  | none => c

theorem successorsPending_eq (img : Image) (slot : Fin 256) (base : Date) (c : Checker) :
    successorsPending img slot base c = allSlots.foldl (successorStep img slot base) c := by
  unfold successorsPending
  congr 1
  funext c j
  simp only [dueDate_some]
  rfl

section

variable (img : Image) (slot : Fin 256) (base : Date)

theorem successorStep_of_successor {c : Checker} {j : Fin 256} {e : CheckEntry} (he : c.slots[j] = some e)
    (hs : e.status = .waiting) (hp : e.predecessor = some slot) :
    successorStep img slot base c j = makePending img j e (dueFrom base e.dueKind) c := by
  rw [Fin.getElem_fin] at he
  simp [successorStep, he, waitingOn_iff.mpr ⟨hs, hp⟩]

theorem successorStep_of_not {c : Checker} {j : Fin 256}
    (h : ∀ e, c.slots[j] = some e → e.status = .waiting → e.predecessor ≠ some slot) :
    successorStep img slot base c j = c := by
  unfold successorStep
  split
  · next e he => exact if_neg fun hon => h e he (waitingOn_iff.mp hon).1 (waitingOn_iff.mp hon).2
  · rfl

@[simp] theorem successorStep_counts (c : Checker) (j : Fin 256) :
    (successorStep img slot base c j).refused = c.refused ∧
    (successorStep img slot base c j).unmatched = c.unmatched := by
  unfold successorStep
  split
  · split_ifs <;> simp [makePending]
  · simp

/-- An entry that becomes PENDING leaves every other slot its entry and its items. -/
theorem makePending_other {j k : Fin 256} (h : j ≠ k) (e : CheckEntry) (due : Date) (c : Checker) :
    (makePending img k e due c).slots[j] = c.slots[j] ∧ itemsOf j (makePending img k e due c) = itemsOf j c :=
  ⟨slots_set_ne h _ _, insertDeadline_filter_of_not (by simpa using h.symm) _⟩

theorem successorStep_other {j k : Fin 256} (h : j ≠ k) (c : Checker) :
    (successorStep img slot base c k).slots[j] = c.slots[j] ∧
    itemsOf j (successorStep img slot base c k) = itemsOf j c := by
  unfold successorStep
  split
  · split_ifs
    · exact makePending_other img h _ _ c
    · exact ⟨rfl, rfl⟩
  · exact ⟨rfl, rfl⟩

/-- A pass over other slots leaves a slot its entry and its items. -/
theorem successorSteps_other {j : Fin 256} {l : List (Fin 256)} (h : j ∉ l) (c : Checker) :
    (l.foldl (successorStep img slot base) c).slots[j] = c.slots[j] ∧
    itemsOf j (l.foldl (successorStep img slot base) c) = itemsOf j c := by
  refine List.foldlRecOn (motive := fun m : Checker => m.slots[j] = c.slots[j] ∧ itemsOf j m = itemsOf j c) l _
    ⟨rfl, rfl⟩ fun m hm k hk => ?_
  have hother := successorStep_other img slot base (ne_of_mem_of_not_mem hk h).symm m
  exact ⟨hother.1.trans hm.1, hother.2.trans hm.2⟩

/-- The whole pass does at a slot what its own step does there. -/
theorem successorsPending_at (c : Checker) (j : Fin 256) :
    ∃ m : Checker, m.slots[j] = c.slots[j] ∧ itemsOf j m = itemsOf j c ∧
      (successorsPending img slot base c).slots[j] = (successorStep img slot base m j).slots[j] ∧
      itemsOf j (successorsPending img slot base c) = itemsOf j (successorStep img slot base m j) := by
  obtain ⟨before, after, hsplit⟩ := List.append_of_mem (List.mem_finRange j)
  have hnodup : (before ++ j :: after).Nodup := hsplit ▸ List.nodup_finRange 256
  have hbefore : j ∉ before := fun hj => List.disjoint_of_nodup_append hnodup hj (by simp)
  have hafter : j ∉ after := (List.nodup_cons.mp (List.Nodup.of_append_right hnodup)).1
  refine ⟨before.foldl (successorStep img slot base) c, (successorSteps_other img slot base hbefore c).1,
    (successorSteps_other img slot base hbefore c).2, ?_⟩
  rw [successorsPending_eq, allSlots, hsplit, List.foldl_append, List.foldl_cons]
  exact successorSteps_other img slot base hafter _

theorem successorsPending_counts (c : Checker) :
    (successorsPending img slot base c).refused = c.refused ∧
    (successorsPending img slot base c).unmatched = c.unmatched := by
  rw [successorsPending_eq]
  exact List.foldlRecOn (motive := fun m : Checker => m.refused = c.refused ∧ m.unmatched = c.unmatched) _ _
    ⟨rfl, rfl⟩ fun m hm k _ => by simpa using hm

/-- An entry that becomes PENDING has its item in the list. -/
theorem makePending_item (j : Fin 256) (e : CheckEntry) (due : Date) (c : Checker) :
    { date := (entryDates img e.earlyMs e.lateMs due).opening, slot := j, kind := .opening } ∈
      itemsOf j (makePending img j e due c) :=
  List.mem_filter.mpr ⟨(insertDeadline_perm _ _).mem_iff.mpr List.mem_cons_self, by simp⟩

end

/-- Settles O43: the chains by their closure, the release by what its pass does at each slot. -/
theorem chainsFollowTheirPredecessor : Obligations.ChainsFollowTheirPredecessor := by
  intro img slot base c
  constructor
  · obtain ⟨hvoids, hclosed, hnone⟩ := voidSuccessors_spec slot c
    refine ⟨by simp only [voidSuccessors], fun j => ⟨hvoids j, fun e he hs => ⟨hnone j e he hs, fun p hp => ?_⟩⟩⟩
    by_contra hchanged
    exact hclosed p hchanged j e he hs hp
  · intro n dueOf opening
    have hdue : ∀ e : CheckEntry, dueOf e = dueFrom base e.dueKind := by
      intro e
      simp only [dueOf]
      cases e.dueKind <;> rfl
    refine ⟨fun j e he hs hp => ?successor, fun j hj => ?other, (successorsPending_counts img slot base c).1,
      (successorsPending_counts img slot base c).2⟩
    case successor =>
      obtain ⟨m, hm, -, hslots, hitems⟩ := successorsPending_at img slot base c j
      rw [successorStep_of_successor img slot base (hm.trans he) hs hp] at hslots hitems
      have hitem := makePending_item img j e (dueFrom base e.dueKind) m
      rw [← hitems] at hitem
      simp only [opening, hdue]
      exact ⟨hslots.trans (slots_set_self _ j _), (List.mem_filter.mp hitem).1⟩
    case other =>
      obtain ⟨m, hm, hmi, hslots, hitems⟩ := successorsPending_at img slot base c j
      rw [successorStep_of_not img slot base (by rwa [hm])] at hslots hitems
      exact ⟨hslots.trans hm, hitems.trans hmi⟩

end Sys2Proof.Machine

/-! # The run of the deadline list, item by item (R137 to R139, R141) -/

namespace Sys2Proof.Machine

/-! ## The head of the list -/

/-- The head is due outside ACQUIRING, when its date is at or before centre time. -/
theorem dueDeadline_of_head {s : State} {d : Deadline} {rest : List Deadline}
    (h : s.checker.deadlines = d :: rest) :
    dueDeadline s = if s.agreement.timeState ≠ .acquiring ∧ dateDiff d.date s.time.date ≤ 0 then some d else none := by
  simp [dueDeadline, h, deadlinesPaused, dateAtOrBefore]

theorem fireDue_iff {kind : DeadlineKind} {s : State} :
    fireDue kind s = true ↔ s.port.station = .run ∧ ∃ d, dueDeadline s = some d ∧ d.kind = kind := by
  unfold fireDue
  split <;> simp_all [inRun]

/-- Before its point, or with another kind at the head, the command changes nothing (assumption log 1). -/
theorem exec_fireCommand_of_not_due {kind : DeadlineKind} {s : State} (h : fireDue kind s = false) :
    exec (fireCommand kind) s = .next s := by
  cases kind
  · exact congrArg Host.Outcome.next (if_neg (by simp [h]))
  · exact congrArg Host.Outcome.next (if_neg (by simp [h]))

/-! ## What one item does -/

/-- The subject has missed more notices than at the arming (R139). -/
def missedSinceArming (heard : Vector HeardEntry 62) (e : CheckEntry) : Bool :=
  match subjectMissed heard e.origin, e.snapshot with
  | some missed, some before => decide (before < missed)
  | _, _ => false

/-- The subject could not be observed: SILENT, NEVER, or with notices missed since the arming (R139). -/
def subjectLost (heard : Vector HeardEntry 62) (e : CheckEntry) : Bool :=
  subjectUnheard heard e.origin || missedSinceArming heard e

theorem missStatus_eq (heard : Vector HeardEntry 62) (e : CheckEntry) :
    missStatus heard e = if subjectLost heard e = true then .unobservable else .missed := by
  unfold missStatus subjectLost missedSinceArming
  cases subjectUnheard heard e.origin with
  | true => rfl
  | false => cases subjectMissed heard e.origin <;> cases e.snapshot <;> simp

theorem missKind_missStatus (heard : Vector HeardEntry 62) (e : CheckEntry) :
    missKind (missStatus heard e) = if subjectLost heard e = true then .unobservable else .missed := by
  rw [missStatus_eq]
  split_ifs <;> rfl

section

variable {s : State} {d : Deadline} {rest : List Deadline} {e : CheckEntry} {dates : EntryDates}
  (hl : s.checker.deadlines = d :: rest) (he : s.checker.slots[d.slot] = some e) (hd : e.dates = some dates)

include hl he hd

/-- The head, an OPEN item, gives way to the MISS item of its entry, now ARMED (R137, R138). -/
theorem fireHead_opening_eq (hk : d.kind = .opening) :
    fireHead d s = { s with checker := { s.checker with
      slots := s.checker.slots.set d.slot (some { e with
        status := .armed
        armingDate := some s.time.date
        snapshot := subjectMissed s.line.heard e.origin })
      deadlines := insertDeadline { date := dates.missDeadline, slot := d.slot, kind := .miss } rest } } := by
  rw [Fin.getElem_fin] at he
  simp [fireHead, hk, fireOpen, he, hd, putEntry, hl]

/-- The state in which the deviation of a missed entry is handed: the item gone and the entry missed (R137, R139). -/
theorem fireHead_miss_eq (hk : d.kind = .miss) :
    fireHead d s =
      let missed : State := { s with checker := { s.checker with
        slots := s.checker.slots.set d.slot (some { e with status := missStatus s.line.heard e })
        deadlines := rest } }
      let handed := handDeviation (missKind (missStatus s.line.heard e)) d.slot e dates.due none missed
      { handed with checker := voidSuccessors d.slot handed.checker } := by
  rw [Fin.getElem_fin] at he
  simp [fireHead, hk, fireMiss, he, hd, putEntry, hl]

end

/-! ## The run -/

/-- A run changes nothing outside the checker and the report unit. -/
theorem runDeadlines_eq (s : State) :
    runDeadlines s = { s with checker := (runDeadlines s).checker, report := (runDeadlines s).report } := by
  have hframe := runDeadlines_frame s
  generalize runDeadlines s = t at hframe
  obtain ⟨⟩ := t
  obtain ⟨⟩ := s
  simp_all

/-- Settles O42: the head's own action, then the run that goes on with what it left. -/
theorem dueItemsFireInListOrder : Obligations.DueItemsFireInListOrder := by
  intro s d rest e dates hs hl he hd
  have hhead := dueDeadline_of_head hl
  refine ⟨fun kind hnot => exec_fireCommand_of_not_due (Bool.eq_false_iff.mpr fun hfire => ?early), ?run⟩
  case early =>
    obtain ⟨-, d', hdue, hkind⟩ := fireDue_iff.mp hfire
    rw [hhead] at hdue
    split_ifs at hdue with hpoint
    obtain rfl := Option.some.inj hdue
    rcases hnot with hpaused | hahead | hother
    · exact hpoint.1 hpaused
    · exact (not_lt.mpr hpoint.2) hahead
    · exact hother hkind
  case run =>
    intro hstate hdate missed silent armed lost unmatched handed fired
    have hdue : dueDeadline s = some d := hhead.trans (if_pos ⟨hstate, hdate⟩)
    have hlost : lost = subjectLost s.line.heard e := rfl
    have hfired : fireHead d s = fired := by
      cases hk : d.kind with
      | opening =>
        rw [fireHead_opening_eq hl he hd hk]
        simp only [fired, hk, if_true]
        rfl
      | miss =>
        rw [fireHead_miss_eq hl he hd hk, missKind_missStatus, missStatus_eq, ← hlost]
        simp only [fired, hk, reduceCtorEq, if_false]
        rfl
    have hrun : runDeadlines s = runDeadlines fired := hfired ▸ runDeadlines_of_due hdue
    have hexec (kind : DeadlineKind) (hk : d.kind = kind) : exec (fireCommand kind) s = .next (runDeadlines s) :=
      hk ▸ exec_fireCommand hs hdue
    have hstation : fired.port.station = .run := by
      rw [← hfired]
      simpa using hs
    refine ⟨runDeadlines s, hexec .opening, hexec .miss, dueDeadline_runDeadlines s,
      fun hnone => hrun.trans (runDeadlines_of_none hnone), fun next hnext => ?_, runDeadlines_eq s⟩
    rw [hrun]
    exact exec_fireCommand hstation hnext

end Sys2Proof.Machine

/-! # CANCEL ENTRY (R133, R144) -/

namespace Sys2Proof.Machine

theorem exec_cancelEntry {s : State} {params : List Octet} (hs : s.port.station = .run) (hl : params.length = 2) :
    exec (.cancelEntry { params := params, early := false }) s =
      .next (answered (withSlot (field params 0 2) cancelAt (clockOutAnswer (params.length + 1) s))) :=
  congrArg _ (hostCommand_inRun hs hl (by decide))

theorem cancelAt_of_empty {slot : Fin 256} {s : State} (h : s.checker.slots[slot] = none) :
    cancelAt slot s = refuse .state s := by
  rw [Fin.getElem_fin] at h
  simp [cancelAt, h]

theorem cancelAt_of_held {slot : Fin 256} {s : State} (h : s.checker.slots[slot] ≠ none) :
    cancelAt slot s = done [] { s with checker := cancelSlot slot s.checker } :=
  if_pos (Option.isSome_iff_ne_none.mpr h)

theorem removeDeadline_eq (slot : Fin 256) (l : List Deadline) :
    removeDeadline slot l = l.filter fun d => decide (d.slot ≠ slot) :=
  List.filter_congr fun d _ => Bool.eq_iff_iff.mpr (by simp)

theorem cancelSlot_same (slot : Fin 256) (c : Checker) : (cancelSlot slot c).slots[slot] = none :=
  slots_set_self _ slot none

/-- Every other slot keeps its entry, VOID down the chain, without a link to the slot (R133, R143, R144). -/
theorem cancelSlot_other {slot j : Fin 256} (h : j ≠ slot) (c : Checker) :
    (cancelSlot slot c).slots[j] = (voidSuccessors slot c).slots[j].map (unlink slot) := by
  have hset := slots_set_ne h ((voidSuccessors slot c).slots.map (Option.map (unlink slot))) none
  exact hset.trans (by simp)

theorem cancelSlot_counts (slot : Fin 256) (c : Checker) :
    (cancelSlot slot c).refused = c.refused ∧ (cancelSlot slot c).unmatched = c.unmatched := by
  simp [cancelSlot]

/-- Settles O45: the two refusals in their order, or the four steps of R144 read off slot by slot. -/
theorem cancelEntryEmptiesTheSlot : Obligations.CancelEntryEmptiesTheSlot := by
  intro s params hs hlength
  have hexec := exec_cancelEntry hs hlength
  refine ⟨fun hbeyond => answersWith_refuse hexec (withSlot_of_beyond _ _ hbeyond),
    fun slot hslot => ⟨fun hempty => ?empty, fun hheld => ?held⟩⟩
  all_goals rw [hslot, withSlot_of_slot] at hexec
  case empty => exact answersWith_refuse hexec (cancelAt_of_empty (by simpa using hempty))
  case held =>
    rw [cancelAt_of_held (by simpa using hheld)] at hexec
    exact ⟨_, hexec, rfl, (cancelSlot_deadlines slot _).trans (removeDeadline_eq slot _), cancelSlot_same slot _,
      fun j hj => cancelSlot_other hj _, (cancelSlot_counts slot _).1, (cancelSlot_counts slot _).2, rfl⟩

end Sys2Proof.Machine

/-! # The octets of CONFIGURE and LOAD ENTRY, and the command codes (R129, R187 to R190, R198) -/

namespace Sys2Proof.Machine

/-! ## The form of a CONFIGURE -/

theorem configureForm_iff (params : List Octet) : configureForm params = true ↔ ConfigureForm params := by
  cases params with
  | nil => simp [configureForm, ConfigureForm]
  | cons cls rest =>
    unfold configureForm ConfigureForm
    dsimp only
    generalize cls.toNat = n
    generalize hcount : valueOctets n = count
    unfold valueOctets at hcount
    split at hcount <;> subst hcount <;> simp_all

/-! ## The octets of an item -/

theorem itemOctets_length (i : ImageItem) : valueOctets (itemClass i) = some (itemOctets i).length := by
  cases i with
  | terminal t x => cases x <;> rfl
  | pair k x => cases x <;> rfl
  | line k x => cases x <;> rfl
  | accept k x => cases x <;> rfl
  | _ => rfl

theorem itemClass_mod (i : ImageItem) : itemClass i % 256 = itemClass i := by cases i <;> rfl

theorem configureForm_itemOctets (i : ImageItem) :
    configureForm (octet (itemClass i) :: octet (itemIndex i) :: itemOctets i) = true := by
  simp [configureForm, itemClass_mod, itemOctets_length]

theorem field_octet_of_le {n : Nat} (h : n ≤ 255) : field [octet n] 0 1 = n := by
  rw [field_cons_zero, octet_toNat, Nat.mod_eq_of_lt (by omega)]

theorem field_two_of_le {n : Nat} (h : n ≤ 65535) : field (beOctets 2 n) 0 2 = n := by
  rw [field_beOctets, Nat.mod_eq_of_lt (by omega)]

@[simp] theorem fin40_mod (k : Fin 40) : k.val % 256 = k.val := Nat.mod_eq_of_lt (by omega)

@[simp] theorem sixBits_mod (b : BitVec 6) : b.toNat % 256 = b.toNat := Nat.mod_eq_of_lt (by omega)

/-- The value octets of an item within its ranges are laid out as R198 says. -/
theorem itemOctets_layout {i : ImageItem} (h : ItemLegal i) :
    ItemLayout (itemClass i) (itemIndex i) (itemOctets i) i := by
  cases i with
  | terminal t x =>
    cases x with
    | input settle cls priority =>
      obtain ⟨-, hsettle, hpriority⟩ := h
      have hs : settle % 256 = settle := Nat.mod_eq_of_lt (by omega)
      have hp : priority % 256 = priority := Nat.mod_eq_of_lt (by omega)
      cases cls <;>
        simp [ItemLayout, itemClass, itemIndex, itemOctets, terminalOctets, field_cons_pos, noticeClassCode, hs, hp]
    | _ => simp [ItemLayout, itemClass, itemIndex, itemOctets, terminalOctets]
  | pair k x =>
    cases x with
    | none => simp [ItemLayout, itemClass, itemIndex, itemOctets, pairOctets]
    | some c =>
      have hlimit : c.limitTenths % 65536 = c.limitTenths := Nat.mod_eq_of_lt (by have := h.2; omega)
      simp [ItemLayout, itemClass, itemIndex, itemOctets, pairOctets, field_cons_pos, hlimit]
  | line k x =>
    cases x with
    | none => simp [ItemLayout, itemClass, itemIndex, itemOctets, clockConfigOctets]
    | some c =>
      obtain ⟨hstep, -, hwidth, -, -, hspacing, hhold⟩ := h
      have hst : c.stepSeconds % 256 = c.stepSeconds := Nat.mod_eq_of_lt (by omega)
      have hw : c.widthMs % 65536 = c.widthMs := Nat.mod_eq_of_lt (by omega)
      have hsp : c.spacingSeconds % 256 = c.spacingSeconds := Nat.mod_eq_of_lt (by omega)
      have hh : c.holdMinutes % 256 = c.holdMinutes := Nat.mod_eq_of_lt (by omega)
      simp [ItemLayout, itemClass, itemIndex, itemOctets, clockConfigOctets, field_cons_pos, field_append_left,
        field_append_right, hst, hw, hsp, hh]
  | accept k x =>
    cases x with
    | none => simp [ItemLayout, itemClass, itemIndex, itemOctets, acceptOctets]
    | some a =>
      cases hoffer : a.offer <;>
        simp [ItemLayout, itemClass, itemIndex, itemOctets, acceptOctets, field_cons_pos, sixBitOctet, hoffer]
  | station n => exact ⟨rfl, rfl, field_octet_of_le (h.2.trans (by decide))⟩
  | lineDelay n => exact ⟨rfl, rfl, field_octet_of_le (h.trans (by decide))⟩
  | watchLead n => exact ⟨rfl, rfl, field_two_of_le (h.trans (by decide))⟩
  | grace n => exact ⟨rfl, rfl, field_two_of_le (h.trans (by decide))⟩
  | silenceLimit n => exact ⟨rfl, rfl, field_octet_of_le (h.2.trans (by decide))⟩
  | attention n => exact ⟨rfl, rfl, field_octet_of_le (h.trans (by decide))⟩

theorem imageItem_itemOctets {i : ImageItem} (h : ItemLegal i) :
    imageItem (itemClass i) (itemIndex i) (itemOctets i) = some i :=
  imageItem_eq_some_iff.mpr ⟨itemOctets_layout h, h⟩

/-! ## LOAD ENTRY read (R129, R131) -/

theorem subjectStateOfCode_eq_some_iff {n : Nat} {st : SubjectState} :
    subjectStateOfCode n = some st ↔ n = match st with | .off => 0 | .on => 1 | .any => 2 := by
  unfold subjectStateOfCode
  split <;> cases st <;> simp_all

theorem dateInRange_iff_lt {d : Date} : dateInRange d = true ↔ d.day ≤ 65535 ∧ d.us < dayLength := by
  simp [dateInRange]

theorem dateField_eq_iff {l : List Octet} {i : Nat} {d : Date} :
    dateField l i = d ↔ field l i 2 = d.day ∧ field l (i + 2) 5 = d.us := by
  obtain ⟨day, us⟩ := d
  simp [dateField]

/-- An absolute due, by the octets of R198 within the ranges of R129. -/
theorem dueKindField_absolute_iff {l : List Octet} {d : Date} :
    dueKindField l = some (.absolute d) ↔
      (field l 5 1 = 0 ∧ field l 6 2 = d.day ∧ field l 8 5 = d.us) ∧ d.day ≤ 65535 ∧ d.us < dayLength := by
  unfold dueKindField
  split
  · next hcode =>
    rw [Option.ite_none_right_eq_some, Option.some.injEq, DueKind.absolute.injEq, dateField_eq_iff]
    constructor
    · rintro ⟨hrange, hday, hus⟩
      have hd := dateInRange_iff_lt.mp hrange
      rw [dateField_eq_iff.mpr ⟨hday, hus⟩] at hd
      exact ⟨⟨hcode, hday, hus⟩, hd⟩
    · rintro ⟨⟨-, hday, hus⟩, hrange⟩
      refine ⟨dateInRange_iff_lt.mpr ?_, hday, hus⟩
      rwa [dateField_eq_iff.mpr ⟨hday, hus⟩]
  · next hcode => simp [hcode]
  · next hcode _ => simp [show field l 5 1 ≠ 0 from hcode]

/-- A relative offset, by the octets of R198 within the range of R129. -/
theorem dueKindField_relative_iff {l : List Octet} {ms : Nat} :
    dueKindField l = some (.relative ms) ↔ (field l 5 1 = 1 ∧ field l 13 4 = ms) ∧ ms ≤ 3600000 := by
  unfold dueKindField
  split
  · next hcode => simp [hcode]
  · next hcode => simp [hcode, within_eq_some_iff]
  · next _ hcode => simp [show field l 5 1 ≠ 1 from hcode]

theorem predecessorField_none_iff {l : List Octet} : predecessorField l = some none ↔ field l 24 1 = 0 := by
  unfold predecessorField
  split
  · next hcode => simp [hcode]
  · next hcode => simp [hcode]
  · next hcode _ => simp [show field l 24 1 ≠ 0 from hcode]

theorem predecessorField_some_iff {l : List Octet} {p : Fin 256} :
    predecessorField l = some (some p) ↔ field l 24 1 = 1 ∧ field l 25 2 = p.val := by
  unfold predecessorField
  split
  · next hcode => simp [hcode]
  · next hcode => simp [hcode, place_eq_some_iff]
  · next _ hcode => simp [show field l 24 1 ≠ 1 from hcode]

/-- Each field is read and judged by itself. -/
theorem loadFields_eq_some_iff_fields {slot : Fin 256} {l : List Octet} {f : LoadFields} :
    loadFields slot l = some f ↔ slot = f.slot ∧ within 0 63 (field l 2 1) = some f.origin ∧
      within 0 39 (field l 3 1) = some f.channel ∧ subjectStateOfCode (field l 4 1) = some f.state ∧
      dueKindField l = some f.dueKind ∧ within 0 600000 (field l 17 3) = some f.earlyMs ∧
      within 0 600000 (field l 20 3) = some f.lateMs ∧ within 0 7 (field l 23 1) = some f.grade ∧
      predecessorField l = some f.predecessor := by
  unfold loadFields
  simp only [Option.bind_eq_bind, Option.bind_eq_some_iff, Option.pure_def, Option.some.injEq]
  constructor
  · rintro ⟨_, horigin, _, hchannel, _, hstate, _, hdue, _, hearly, _, hlate, _, hgrade, _, hpred, rfl⟩
    exact ⟨rfl, horigin, hchannel, hstate, hdue, hearly, hlate, hgrade, hpred⟩
  · rintro ⟨rfl, horigin, hchannel, hstate, hdue, hearly, hlate, hgrade, hpred⟩
    exact ⟨_, horigin, _, hchannel, _, hstate, _, hdue, _, hearly, _, hlate, _, hgrade, _, hpred, rfl⟩

theorem dueKindField_eq_some_iff {l : List Octet} {k : DueKind} :
    dueKindField l = some k ↔
      (match k with
        | .absolute d => field l 5 1 = 0 ∧ field l 6 2 = d.day ∧ field l 8 5 = d.us
        | .relative ms => field l 5 1 = 1 ∧ field l 13 4 = ms) ∧
      match k with
        | .absolute d => d.day ≤ 65535 ∧ d.us < dayLength
        | .relative ms => ms ≤ 3600000 := by
  cases k with
  | absolute d => exact dueKindField_absolute_iff
  | relative ms => exact dueKindField_relative_iff

theorem predecessorField_eq_some_iff {l : List Octet} {p : Option (Fin 256)} :
    predecessorField l = some p ↔
      match p with
        | none => field l 24 1 = 0
        | some p => field l 24 1 = 1 ∧ field l 25 2 = p.val := by
  cases p with
  | none => exact predecessorField_none_iff
  | some p => exact predecessorField_some_iff

/-- The octets of a LOAD ENTRY give its fields as R198 lays them out, within the ranges of R129. -/
theorem loadFields_eq_some_iff {slot : Fin 256} {l : List Octet} {f : LoadFields} (hplace : field l 0 2 = slot.val) :
    loadFields slot l = some f ↔ LoadLayout l f ∧ LoadLegal f := by
  have hfin : slot = f.slot ↔ field l 0 2 = f.slot.val := by rw [hplace, Fin.ext_iff]
  simp only [loadFields_eq_some_iff_fields, within_eq_some_iff, subjectStateOfCode_eq_some_iff,
    dueKindField_eq_some_iff, predecessorField_eq_some_iff, hfin]
  constructor
  · rintro ⟨hslot, ⟨horigin, -, rorigin⟩, ⟨hchannel, -, rchannel⟩, hstate, ⟨hdue, rdue⟩, ⟨hearly, -, rearly⟩,
      ⟨hlate, -, rlate⟩, ⟨hgrade, -, rgrade⟩, hpred⟩
    exact ⟨⟨hslot, horigin, hchannel, hstate, hdue, hearly, hlate, hgrade, hpred⟩, rorigin, rchannel, rearly, rlate,
      rgrade, rdue⟩
  · rintro ⟨⟨hslot, horigin, hchannel, hstate, hdue, hearly, hlate, hgrade, hpred⟩, rorigin, rchannel, rearly, rlate,
      rgrade, rdue⟩
    exact ⟨hslot, ⟨horigin, Nat.zero_le _, rorigin⟩, ⟨hchannel, Nat.zero_le _, rchannel⟩, hstate, ⟨hdue, rdue⟩,
      ⟨hearly, Nat.zero_le _, rearly⟩, ⟨hlate, Nat.zero_le _, rlate⟩, ⟨hgrade, Nat.zero_le _, rgrade⟩, hpred⟩

/-! ## LOAD ENTRY spelt (R198) -/

@[simp] theorem dueOctets_length (k : DueKind) : (dueOctets k).length = 12 := by
  cases k <;> simp [dueOctets]

@[simp] theorem predecessorOctets_length (p : Option (Fin 256)) : (predecessorOctets p).length = 3 := by
  cases p <;> simp [predecessorOctets]

theorem loadOctets_length (f : LoadFields) : (loadOctets f).length = 27 := by simp [loadOctets]

theorem loadOctets_layout {f : LoadFields} (h : LoadLegal f) : LoadLayout (loadOctets f) f := by
  obtain ⟨horigin, hchannel, hearly, hlate, hgrade, hdue⟩ := h
  have ho : f.origin % 256 = f.origin := Nat.mod_eq_of_lt (by omega)
  have hc : f.channel % 256 = f.channel := Nat.mod_eq_of_lt (by omega)
  have he : f.earlyMs % 16777216 = f.earlyMs := Nat.mod_eq_of_lt (by omega)
  have hl : f.lateMs % 16777216 = f.lateMs := Nat.mod_eq_of_lt (by omega)
  have hg : f.grade % 256 = f.grade := Nat.mod_eq_of_lt (by omega)
  have hs : f.slot.val % 65536 = f.slot.val := Nat.mod_eq_of_lt (by omega)
  unfold loadOctets
  refine ⟨?slot, ?origin, ?channel, ?state, ?due, ?early, ?late, ?grade, ?predecessor⟩
  case slot => simp [field_append_left, hs]
  case origin => simp [field_append_right, ho]
  case channel => simp [field_append_right, field_cons_pos, hc]
  case state => cases f.state <;> simp [field_append_right, field_cons_pos, subjectStateCode]
  case due =>
    cases hk : f.dueKind with
    | absolute d =>
      simp only [hk] at hdue
      have hday : d.day % 65536 = d.day := Nat.mod_eq_of_lt (by omega)
      have hus : d.us % 1099511627776 = d.us := Nat.mod_eq_of_lt (by rw [dayLength_eq] at hdue; omega)
      simp [field_append_left, field_append_right, field_cons_pos, dueOctets, dateOctets, hday, hus]
    | relative ms =>
      simp only [hk] at hdue
      have hms : ms % 4294967296 = ms := Nat.mod_eq_of_lt (by omega)
      simp [field_append_left, field_append_right, field_cons_pos, dueOctets, hms]
  case early => simp [field_append_left, field_append_right, field_cons_pos, he]
  case late => simp [field_append_left, field_append_right, field_cons_pos, hl]
  case grade => simp [field_append_right, field_cons_pos, hg]
  case predecessor =>
    cases f.predecessor with
    | none => simp [field_append_right, field_cons_pos, predecessorOctets]
    | some p =>
      have hp : p.val % 65536 = p.val := Nat.mod_eq_of_lt (by omega)
      simp [field_append_right, field_cons_pos, predecessorOctets, hp]

/-! ## The command codes (R187, R188, R198) -/

theorem commandOfCode_code (c : PortCommand) : commandOfCode c.code = some c := by cases c <;> rfl

theorem code_range (c : PortCommand) : 1 ≤ c.code.toNat ∧ c.code.toNat ≤ 14 := by cases c <;> decide

theorem commandOfCode_eq_none {code : Octet} (h : code.toNat = 0 ∨ 14 < code.toNat) : commandOfCode code = none := by
  unfold commandOfCode
  rw [List.find?_eq_none]
  intro c _ hc
  have hrange := code_range c
  rw [beq_iff_eq.mp hc] at hrange
  omega

/-- At most 72 octets whose first is a command's code are that command. -/
theorem periodCommand_of_code (c : PortCommand) {params : List Octet} (early : Bool) (h : params.length ≤ 71) :
    periodCommand (c.code :: params) early = c.row { params := params, early := early } := by
  have hnamed : namedCommand (c.code :: params) = some c := by
    simp [namedCommand, commandOfCode_code, Nat.lt_succ_of_le h]
  simp [periodCommand, hnamed]

theorem periodCommand_unknown {code : Octet} {params : List Octet} (early : Bool)
    (h : code.toNat = 0 ∨ 14 < code.toNat ∨ 71 < params.length) :
    periodCommand (code :: params) early = .unknownCommand (code :: params) early := by
  have hnamed : namedCommand (code :: params) = none := by
    unfold namedCommand
    split_ifs with hlong
    · rfl
    · refine commandOfCode_eq_none ?_
      rw [List.length_cons] at hlong
      omega
  simp [periodCommand, hnamed]

theorem exec_row (c : PortCommand) (p : SelectPeriod) (s : State) : exec (c.row p) s = execPortCommand c p s := by
  cases c <;> rfl

/-- Octets that name a command do what they name (assumption log 1). -/
theorem exec_unknownCommand (octets : List Octet) (early : Bool) (s : State) :
    exec (.unknownCommand octets early) s = exec (periodCommand octets early) s := by
  cases hnamed : namedCommand octets with
  | some c =>
    have hunknown : exec (.unknownCommand octets early) s =
        execPortCommand c { params := octets.tail, early := early } s := by
      simp [exec, execUnknownCommand, hnamed]
    simp [hunknown, periodCommand, hnamed, exec_row]
  | none =>
    by_cases hempty : octets = []
    · subst hempty
      rfl
    · simp [periodCommand, hnamed, hempty]

/-- Settles O13: what is read by the layout of R198, what is spelt by its own reading, and the codes one by one. -/
theorem hostOctetsReadBackAsTheyWereSpelt : Obligations.HostOctetsReadBackAsTheyWereSpelt := by
  refine ⟨configureForm_iff, fun cls index values i => imageItem_eq_some_iff,
    fun octets slot f => loadFields_eq_some_iff, fun i hi => ⟨configureForm_itemOctets i, imageItem_itemOctets hi⟩,
    fun f hf => ?load, fun params early hl => ?codes, fun code params early => periodCommand_unknown early,
    fun early => rfl, exec_unknownCommand⟩
  case load =>
    have hlayout := loadOctets_layout hf
    exact ⟨loadOctets_length f, hlayout.1, (loadFields_eq_some_iff hlayout.1).mpr ⟨hlayout, hf⟩⟩
  case codes =>
    have hcode (c : PortCommand) := periodCommand_of_code c early hl
    exact ⟨hcode .configure, hcode .start, hcode .restart, hcode .readStatus, hcode .takeEvents, hcode .peekEvent,
      hcode .takeDeviation, hcode .loadEntry, hcode .cancelEntry, hcode .readEntry, hcode .readHeard,
      hcode .clearUrgent, hcode .setTime, hcode .setDial⟩

end Sys2Proof.Machine

/-! # LOAD ENTRY (R129, R131, R132, R134, R135) -/

namespace Sys2Proof.Machine

/-! ## What the port does leaves a run of the deadline list as it is (R137) -/

section

variable (s x : State)

theorem fireOpen_portExchange (slot : Fin 256) :
    fireOpen slot (portExchange s x) = portExchange (fireOpen slot s) x := by
  have hchecker : (portExchange s x).checker = s.checker := rfl
  unfold fireOpen
  rw [hchecker]
  cases s.checker.slots[slot] with
  | none => rfl
  | some e =>
    dsimp only
    cases e.dates <;> rfl

theorem fireMiss_portExchange (slot : Fin 256) :
    fireMiss slot (portExchange s x) = portExchange (fireMiss slot s) x := by
  have hchecker : (portExchange s x).checker = s.checker := rfl
  unfold fireMiss
  rw [hchecker]
  cases s.checker.slots[slot] with
  | none => rfl
  | some e =>
    dsimp only
    cases e.dates <;> rfl

theorem fireHead_portExchange (d : Deadline) : fireHead d (portExchange s x) = portExchange (fireHead d s) x := by
  let popped : State := { s with checker := { s.checker with deadlines := s.checker.deadlines.tail } }
  unfold fireHead
  cases d.kind
  · exact fireOpen_portExchange popped x d.slot
  · exact fireMiss_portExchange popped x d.slot

theorem fireItems_portExchange (n : Nat) : fireItems n (portExchange s x) = portExchange (fireItems n s) x := by
  induction n generalizing s with
  | zero => rfl
  | succ n ih =>
    have hdue : dueDeadline (portExchange s x) = dueDeadline s := dueDeadline_congr rfl rfl rfl
    unfold fireItems
    rw [hdue]
    cases dueDeadline s with
    | none => rfl
    | some d =>
      simp only [fireHead_portExchange]
      exact ih (fireHead d s)

theorem runDeadlines_portExchange : runDeadlines (portExchange s x) = portExchange (runDeadlines s) x :=
  fireItems_portExchange s x _

end

/-! ## The checks beyond the fields' ranges (R131) -/

theorem predecessorOk_eq_false_iff (f : LoadFields) (c : Checker) :
    predecessorOk f c = false ↔
      (∃ p, f.predecessor = some p ∧ (p = f.slot ∨ c.slots[p] = none)) ∨
        (f.predecessor = none ∧ ∃ ms, f.dueKind = .relative ms) := by
  unfold predecessorOk
  cases f.predecessor with
  | some p =>
    have hslot : (c.slots[p]).isSome = false ↔ c.slots[p] = none :=
      Option.isSome_eq_false_iff.trans Option.isNone_iff_eq_none
    simp only [Bool.and_eq_false_iff, hslot, decide_eq_false_iff_not, not_not, Option.some.injEq, exists_eq_left',
      reduceCtorEq, false_and, or_false]
    exact or_comm
  | none => cases f.dueKind <;> simp

theorem deadlineAhead_eq_false_iff (img : Image) (now : Date) (f : LoadFields) :
    deadlineAhead img now f = false ↔ ∃ due, f.dueKind = .absolute due ∧
      dateDiff (entryDates img f.earlyMs f.lateMs due).missDeadline now ≤ 0 := by
  unfold deadlineAhead
  cases f.dueKind <;> simp [dateAtOrBefore]

/-- What R131 refuses of fields within their ranges. -/
theorem loadAllowed_eq_false_iff (f : LoadFields) (s : State) :
    loadAllowed f s = false ↔ f.origin = s.port.image.station ∨
      (∃ p, f.predecessor = some p ∧ (p = f.slot ∨ s.checker.slots[p] = none)) ∨
      (f.predecessor = none ∧ ∃ ms, f.dueKind = .relative ms) ∨
      ∃ due, f.dueKind = .absolute due ∧
        dateDiff (entryDates s.port.image f.earlyMs f.lateMs due).missDeadline s.time.date ≤ 0 := by
  unfold loadAllowed
  rw [Bool.and_eq_false_iff, Bool.and_eq_false_iff, predecessorOk_eq_false_iff, deadlineAhead_eq_false_iff,
    decide_eq_false_iff_not, not_not, or_assoc, or_assoc]

/-! ## The first status of an entry (R132) -/

section

variable {img : Image} {f : LoadFields} {c : Checker} {p : Fin 256} {e : CheckEntry}

theorem placeEntry_waiting (hp : f.predecessor = some p) (he : c.slots[p] = some e)
    (hs : e.status = .waiting ∨ e.status = .pending ∨ e.status = .armed) :
    placeEntry img f c = putEntry f.slot (some (loadedEntry f .waiting)) c := by
  rw [Fin.getElem_fin] at he
  rcases hs with hs | hs | hs <;> simp [placeEntry, hp, he, hs]

theorem placeEntry_void (hp : f.predecessor = some p) (he : c.slots[p] = some e)
    (hs : e.status = .missed ∨ e.status = .unobservable ∨ e.status = .cleared ∨ e.status = .void) :
    placeEntry img f c = putEntry f.slot (some (loadedEntry f .void)) c := by
  rw [Fin.getElem_fin] at he
  rcases hs with hs | hs | hs | hs <;> simp [placeEntry, hp, he, hs]

/-- An absolute due makes the entry PENDING without a predecessor, or behind a SATISFIED one. -/
theorem placeEntry_absolute {due : Date} (hdue : f.dueKind = .absolute due)
    (h : (∃ p e, f.predecessor = some p ∧ c.slots[p] = some e ∧ e.status = .satisfied) ∨ f.predecessor = none) :
    placeEntry img f c = makePending img f.slot (loadedEntry f .pending) due c := by
  rcases h with ⟨p, e, hp, he, hs⟩ | hp
  · rw [Fin.getElem_fin] at he
    simp [placeEntry, hp, he, hs, hdue, dueDate]
  · simp [placeEntry, hp, hdue, dueDate]

/-- A relative due counts from the observation that satisfied the predecessor (R134). -/
theorem placeEntry_relative {m : Matched} {ms : Nat} (hdue : f.dueKind = .relative ms) (hp : f.predecessor = some p)
    (he : c.slots[p] = some e) (hs : e.status = .satisfied) (hm : e.matched = some m) :
    placeEntry img f c =
      makePending img f.slot (loadedEntry f .pending) (dateAdd m.date ((ms * 1000 : Nat) : Int)) c := by
  rw [Fin.getElem_fin] at he
  simp [placeEntry, hp, he, hs, hm, hdue, dueDate]

end

/-! ## The command -/

theorem exec_loadEntry {s : State} {params : List Octet} (hs : s.port.station = .run) (hl : params.length = 27) :
    exec (.loadEntry { params := params, early := false }) s =
      .next (answered (withSlot (field params 0 2) (fun slot => loadSlot slot params)
        (clockOutAnswer (params.length + 1) s))) :=
  congrArg _ (hostCommand_inRun hs hl (by decide))

section

variable {slot : Fin 256} {params : List Octet} {f : LoadFields} {s : State}

theorem loadSlot_of_held (h : s.checker.slots[slot] ≠ none) : loadSlot slot params s = refuse .state s :=
  if_pos (Option.isSome_iff_ne_none.mpr h)

theorem loadSlot_of_no_fields (h : s.checker.slots[slot] = none) (hf : loadFields slot params = none) :
    loadSlot slot params s = refuse .range s := by
  rw [Fin.getElem_fin] at h
  simp [loadSlot, h, hf]

theorem loadSlot_of_not_allowed (h : s.checker.slots[slot] = none) (hf : loadFields slot params = some f)
    (hbad : loadAllowed f s = false) : loadSlot slot params s = refuse .range s := by
  rw [Fin.getElem_fin] at h
  simp [loadSlot, h, hf, hbad]

theorem loadSlot_of_allowed (h : s.checker.slots[slot] = none) (hf : loadFields slot params = some f)
    (hgood : loadAllowed f s = true) : loadSlot slot params s = done [] (acceptEntry f s) := by
  rw [Fin.getElem_fin] at h
  simp [loadSlot, h, hf, hgood]

/-- An entry accepted in a select period is placed and fires as outside it. -/
theorem acceptEntry_clockOut (n : Nat) :
    acceptEntry f (clockOutAnswer n s) =
      portExchange (runDeadlines { s with checker := placeEntry s.port.image f s.checker }) (clockOutAnswer n s) :=
  runDeadlines_portExchange { s with checker := placeEntry s.port.image f s.checker } (clockOutAnswer n s)

end

/-- A command that has run the deadline list answers DONE with nothing else changed but the exchange (R137, R187). -/
theorem answered_run_frame {s r x : State} (returned : List Octet)
    (h : r = { s with checker := r.checker, report := r.report }) :
    let t := answered (done returned (portExchange r x))
    t = { portExchange s t with checker := t.checker, report := t.report } := by
  intro t
  simp only [t]
  rw [h]
  rfl

theorem dueDeadline_of_same_list {s : State} {c : Checker} (h : c.deadlines = s.checker.deadlines) :
    dueDeadline { s with checker := c } = dueDeadline s := by
  simp [dueDeadline, deadlinesPaused, h]

/-- Settles O44: the refusals in their order, or the entry placed by its predecessor's status and the run after it. -/
theorem loadEntryPlacesOrRefuses : Obligations.LoadEntryPlacesOrRefuses := by
  intro s params hs hlength
  have hexec := exec_loadEntry hs hlength
  refine ⟨fun hbeyond => answersWith_refuse hexec (withSlot_of_beyond _ _ hbeyond), fun slot hslot => ?_⟩
  rw [hslot, withSlot_of_slot] at hexec
  refine ⟨fun hheld => ?held, fun hempty hnone => ?noFields, ?placed⟩
  case held => exact answersWith_refuse hexec (loadSlot_of_held (by simpa using hheld))
  case noFields => exact answersWith_refuse hexec (loadSlot_of_no_fields (by simpa using hempty) hnone)
  case placed =>
    intro f hempty hf img dates bad placed pending
    have hfslot : f.slot = slot := loadFields_slot hf
    have hbad : loadAllowed f s = false ↔ bad := by
      rw [loadAllowed_eq_false_iff, hfslot]
      rfl
    have hbadOut : loadAllowed f (clockOutAnswer (params.length + 1) s) = loadAllowed f s := rfl
    refine ⟨fun h => ?refused, fun h hidle => ?accepted⟩
    case refused =>
      exact answersWith_refuse hexec (loadSlot_of_not_allowed (by simpa using hempty) hf (hbadOut.trans (hbad.mpr h)))
    case accepted =>
      have hallowed : loadAllowed f s = true := Bool.of_not_eq_false (mt hbad.mp h)
      let ran : State := runDeadlines { s with checker := placeEntry img f s.checker }
      rw [loadSlot_of_allowed (by simpa using hempty) hf (hbadOut.trans hallowed), acceptEntry_clockOut] at hexec
      have hquiet {c : Checker} (hc : placeEntry img f s.checker = c) (hlist : c.deadlines = s.checker.deadlines) :
          ran.checker = c ∧ ran.report = s.report := by
        have hnone : dueDeadline { s with checker := c } = none := (dueDeadline_of_same_list hlist).trans hidle
        simp only [ran, hc, runDeadlines_of_none hnone, and_self]
      have hpending {due : Date} (hc : placeEntry img f s.checker =
          makePending img f.slot (loadedEntry f .pending) due s.checker) :
          (dueDeadline (pending due) = none → ran.checker = (pending due).checker ∧ ran.report = s.report) ∧
          ∀ d, dueDeadline (pending due) = some d → ∃ u, exec (fireCommand d.kind) (pending due) = .next u ∧
            ran.checker = u.checker ∧ ran.report = u.report := by
        have hran : ran = runDeadlines (pending due) := by
          simp only [ran, hc, hfslot]
          rfl
        rw [hran]
        exact ⟨fun hnone => by simp only [runDeadlines_of_none hnone, pending, and_self],
          fun d hd => ⟨_, exec_fireCommand hs hd, rfl, rfl⟩⟩
      let t := answered (done [] (portExchange ran (clockOutAnswer (params.length + 1) s)))
      have hchecker : t.checker = ran.checker := rfl
      have hreport : t.report = ran.report := rfl
      refine ⟨t, hexec, rfl, answered_run_frame [] (runDeadlines_eq _), ?_⟩
      rw [hchecker, hreport]
      refine ⟨fun p e hp he => ⟨fun hst => ?waiting, fun hst => ?void⟩,
        fun due hpred hdue => hpending (placeEntry_absolute hdue hpred),
        fun p e m ms hp he hst hm hdue => hpending (placeEntry_relative hdue hp he hst hm)⟩
      case waiting => exact hquiet ((placeEntry_waiting hp he hst).trans (by rw [hfslot]; rfl)) rfl
      case void => exact hquiet ((placeEntry_void hp he hst).trans (by rw [hfslot]; rfl)) rfl

end Sys2Proof.Machine

/-! # Observations (R145 to R150) -/

namespace Sys2Proof.Machine

/-! ## Which entries an observation may act on (R146, R147, R149) -/

/-- The due date of an entry. -/
def entryDue (e : CheckEntry) : Date := (e.dates.map (·.due)).getD { day := 0, us := 0 }

theorem entryDue_of_dates {e : CheckEntry} {dates : EntryDates} (h : e.dates = some dates) :
    entryDue e = dates.due := by
  simp [entryDue, h]

theorem meetsSubject_iff (o : Observation) (e : CheckEntry) :
    meetsSubject o e = true ↔
      (e.origin = 0 ∧ o.own = true ∨ e.origin = 63 ∨
        e.origin ≠ 0 ∧ e.origin ≠ 63 ∧ o.own = false ∧ o.origin = e.origin) ∧ o.channel = e.channel ∧
      (e.state = .any ∨ e.state = .on ∧ o.state = true ∨ e.state = .off ∧ o.state = false) := by
  have horigin : (if e.origin = 0 then o.own else if e.origin = 63 then true
      else !o.own && decide (o.origin = e.origin)) = true ↔
      (e.origin = 0 ∧ o.own = true ∨ e.origin = 63 ∨
        e.origin ≠ 0 ∧ e.origin ≠ 63 ∧ o.own = false ∧ o.origin = e.origin) := by
    split_ifs with hzero hany
    · simp [hzero]
    · simp [hany]
    · simp [hzero, hany]
  unfold meetsSubject
  rw [Bool.and_eq_true, Bool.and_eq_true, horigin, decide_eq_true_eq, and_assoc]
  cases e.state <;> simp

theorem eligible_iff (o : Observation) (e : CheckEntry) :
    eligible o e = true ↔ e.status = .armed ∧ meetsSubject o e = true ∧
      ∃ dates, e.dates = some dates ∧ dateDiff dates.opening o.date ≤ 0 := by
  unfold eligible
  cases e.dates <;> simp [dateAtOrBefore, and_assoc]

theorem clearable_iff (o : Observation) (e : CheckEntry) :
    clearable o e = true ↔ (e.status = .missed ∨ e.status = .unobservable) ∧ meetsSubject o e = true ∧
      e.dates ≠ none ∧ dateDiff (windowStart e (entryDue e)) o.date ≤ 0 ∧
      dateDiff o.date (windowEnd e (entryDue e)) ≤ 0 := by
  unfold clearable
  cases hd : e.dates with
  | none => simp
  | some dates => simp [dateAtOrBefore, and_assoc, entryDue_of_dates hd]

/-! ## The earliest of them (R147, R149) -/

theorem candidateAt_eq_some_iff {test : CheckEntry → Bool} {slots : Vector (Option CheckEntry) 256} {j : Fin 256}
    {c : Candidate} :
    candidateAt test slots j = some c ↔
      ∃ e, slots[j] = some e ∧ e.dates ≠ none ∧ test e = true ∧ c = { slot := j, entry := e, due := entryDue e } := by
  unfold candidateAt
  cases slots[j] with
  | none => simp
  | some e =>
    cases hd : e.dates with
    | none => simp [hd]
    | some dates => simp [hd, entryDue_of_dates hd, eq_comm (a := c)]

/-- The pass ends with the candidate it began with, or with one of the list. -/
theorem earliest_mem {l : List Candidate} {best : Option Candidate} {b : Candidate}
    (h : l.foldl earlierCandidate best = some b) : best = some b ∨ b ∈ l := by
  induction l generalizing best with
  | nil => exact .inl h
  | cons c rest ih =>
    rcases ih h with hc | hc
    · unfold earlierCandidate at hc
      split at hc
      · split_ifs at hc
        · exact .inr (Option.some.inj hc ▸ List.mem_cons_self)
        · exact .inl hc
      · exact .inr (Option.some.inj hc ▸ List.mem_cons_self)
    · exact .inr (List.mem_cons_of_mem c hc)

/-- A candidate that no other of the list precedes is kept. -/
theorem earliest_keeps {l : List Candidate} {b : Candidate} (h : ∀ c ∈ l, 0 ≤ dateDiff c.due b.due) :
    l.foldl earlierCandidate (some b) = some b := by
  induction l with
  | nil => rfl
  | cons c rest ih =>
    have hc : earlierCandidate (some b) c = some b := by
      simp [earlierCandidate, dateBefore, not_lt.mpr (h c List.mem_cons_self)]
    rw [List.foldl_cons, hc]
    exact ih fun x hx => h x (List.mem_cons_of_mem c hx)

/-- A candidate that precedes the best so far takes its place. -/
theorem earlierCandidate_takes {best : Option Candidate} {c : Candidate}
    (h : ∀ b, best = some b → dateDiff c.due b.due < 0) : earlierCandidate best c = some c := by
  cases best with
  | none => rfl
  | some b => simp [earlierCandidate, dateBefore, h b rfl]

/-- Of the entries that pass the test, the one of earliest due, and of the lowest slot among equals, is chosen. -/
theorem chooseEntry_of_first {test : CheckEntry → Bool} {slots : Vector (Option CheckEntry) 256} {k : Fin 256}
    {e : CheckEntry} (he : slots[k] = some e) (hdates : e.dates ≠ none) (ht : test e = true)
    (hfirst : ∀ (j : Fin 256) (e' : CheckEntry), j ≠ k → slots[j] = some e' → test e' = true →
      0 ≤ dateDiff (entryDue e') (entryDue e) ∧ (k < j ∨ dateDiff (entryDue e) (entryDue e') < 0)) :
    chooseEntry test slots = some { slot := k, entry := e, due := entryDue e } := by
  obtain ⟨before, after, hsplit⟩ := List.append_of_mem (List.mem_finRange k)
  have hsorted : (before ++ k :: after).Pairwise (· < ·) := hsplit ▸ List.pairwise_lt_finRange 256
  obtain ⟨-, hright, hleft⟩ := List.pairwise_append.mp hsorted
  have hk : candidateAt test slots k = some { slot := k, entry := e, due := entryDue e } :=
    candidateAt_eq_some_iff.mpr ⟨e, he, hdates, ht, rfl⟩
  unfold chooseEntry allSlots
  rw [hsplit, List.filterMap_append, List.filterMap_cons_some hk, List.foldl_append, List.foldl_cons,
    earlierCandidate_takes]
  · refine earliest_keeps fun c hc => ?_
    obtain ⟨j, hj, hcandidate⟩ := List.mem_filterMap.mp hc
    obtain ⟨e', he', -, ht', rfl⟩ := candidateAt_eq_some_iff.mp hcandidate
    exact (hfirst j e' ((List.pairwise_cons.mp hright).1 j hj).ne' he' ht').1
  · intro b hb
    have hmem := (earliest_mem hb).resolve_left (by simp)
    obtain ⟨j, hj, hcandidate⟩ := List.mem_filterMap.mp hmem
    obtain ⟨e', he', -, ht', rfl⟩ := candidateAt_eq_some_iff.mp hcandidate
    have hlt : j < k := hleft j hj k List.mem_cons_self
    exact (hfirst j e' hlt.ne he' ht').2.resolve_left hlt.asymm

theorem chooseEntry_of_none {test : CheckEntry → Bool} {slots : Vector (Option CheckEntry) 256}
    (h : ∀ (j : Fin 256) (e : CheckEntry), slots[j] = some e → test e = false) : chooseEntry test slots = none := by
  have hnone : allSlots.filterMap (candidateAt test slots) = [] := by
    refine List.filterMap_eq_nil_iff.mpr fun j _ => Option.eq_none_iff_forall_ne_some.mpr fun c hc => ?_
    obtain ⟨e, he, -, ht, -⟩ := candidateAt_eq_some_iff.mp hc
    simp [h j e he] at ht
  simp [chooseEntry, hnone]

/-! ## What the observation does -/

section

variable {o : Observation} {s : State} {k : Candidate}

theorem takeObservation_acquiring (h : o.timeState = .acquiring) :
    takeObservation o s =
      { s with checker := { s.checker with refused := saturatingAdd 65535 s.checker.refused 1 } } := if_pos h

theorem takeObservation_satisfies (h : o.timeState ≠ .acquiring)
    (hk : chooseEntry (eligible o) s.checker.slots = some k) : takeObservation o s = satisfyEntry o k s := by
  simp [takeObservation, h, hk]

theorem takeObservation_clears (h : o.timeState ≠ .acquiring)
    (hnone : chooseEntry (eligible o) s.checker.slots = none)
    (hk : chooseEntry (clearable o) s.checker.slots = some k) : takeObservation o s = clearEntry o k s := by
  simp [takeObservation, h, hnone, hk]

theorem takeObservation_unmatched (h : o.timeState ≠ .acquiring)
    (hnone : chooseEntry (eligible o) s.checker.slots = none)
    (hnone' : chooseEntry (clearable o) s.checker.slots = none) :
    takeObservation o s =
      { s with checker := { s.checker with unmatched := saturatingAdd 65535 s.checker.unmatched 1 } } := by
  simp [takeObservation, h, hnone, hnone']

end

theorem verdictOf_eq (o : Observation) (e : CheckEntry) (due : Date) :
    verdictOf o e due = if dateDiff o.date (windowStart e due) < 0 then .early
      else if dateDiff (windowEnd e due) o.date < 0 then .late else .onTime := by
  simp [verdictOf, dateBefore]

theorem handVerdict_of_verdict {o : Observation} {k : Candidate} {v : CheckVerdict}
    (h : verdictOf o k.entry k.due = v) (s : State) :
    handVerdict o k s =
      handIfAny (verdictDeviation v) k.slot (satisfiedBy o k) k.due (matchedOf o, o.timeState) s := by
  subst h
  rfl

/-- The successors of a satisfied entry are released by the image of the station (R137, R142). -/
theorem satisfyEntry_eq (o : Observation) (k : Candidate) (s : State) :
    satisfyEntry o k s =
      let reported := handVerdict o k { s with checker := settleEntry o k s.checker }
      runDeadlines { reported with
        checker := successorsPending s.port.image k.slot o.date reported.checker } := by
  simp [satisfyEntry, releaseSuccessors]

/-- Settles O46: the entry that the pass chooses, and what each of the four outcomes does. -/
theorem observationSatisfiesOrClearsOneEntry : Obligations.ObservationSatisfiesOrClearsOneEntry := by
  intro o s due early late meets open_ clears first none_ seen
  have hopen (e : CheckEntry) : eligible o e = true ↔ open_ e := by
    rw [eligible_iff, meetsSubject_iff]
  have hclears (e : CheckEntry) : clearable o e = true ↔ clears e := by
    rw [clearable_iff, meetsSubject_iff]
    rfl
  have hchoose {test : CheckEntry → Bool} {p : CheckEntry → Prop} (hp : ∀ e, test e = true ↔ p e)
      (hdates : ∀ e, p e → e.dates ≠ none) {k : Fin 256} {e : CheckEntry} (h : first p k e) :
      chooseEntry test s.checker.slots = some { slot := k, entry := e, due := due e } := by
    obtain ⟨he, hpe, hfirst⟩ := h
    exact chooseEntry_of_first he (hdates e hpe) ((hp e).mpr hpe)
      fun j e' hj he' ht => hfirst j e' hj he' ((hp e').mp ht)
  have hnone {test : CheckEntry → Bool} {p : CheckEntry → Prop} (hp : ∀ e, test e = true ↔ p e) (h : none_ p) :
      chooseEntry test s.checker.slots = none :=
    chooseEntry_of_none fun j e he => Bool.eq_false_iff.mpr fun ht => h j e he ((hp e).mp ht)
  have hopenDates (e : CheckEntry) (h : open_ e) : e.dates ≠ none := by
    obtain ⟨-, -, dates, hd, -⟩ := h
    simp [hd]
  have hclearsDates (e : CheckEntry) (h : clears e) : e.dates ≠ none := by
    obtain ⟨-, -, hd, -⟩ := h
    exact hd
  refine ⟨takeObservation_acquiring, fun hstate => ⟨fun k e hfirst => ?satisfied, fun k e hn hfirst => ?cleared,
    fun hn hn' => ?unmatched⟩⟩
  case satisfied =>
    intro verdict satisfied settled reported
    let chosen : Candidate := { slot := k, entry := e, due := due e }
    have hverdict : verdictOf o chosen.entry chosen.due = verdict := verdictOf_eq o e (due e)
    clear_value verdict
    have hsatisfied : satisfiedBy o chosen = satisfied := by
      rw [satisfiedBy, hverdict]
      rfl
    have hsettle : settleEntry o chosen s.checker = settled.checker := by
      rw [settleEntry, hsatisfied, removeDeadline_eq]
      rfl
    have hreported : handVerdict o chosen settled = reported := by
      rw [handVerdict_of_verdict hverdict, hsatisfied]
      cases verdict <;> rfl
    rw [takeObservation_satisfies hstate (hchoose hopen hopenDates hfirst), satisfyEntry_eq, hsettle]
    exact congrArg
      (fun r : State => runDeadlines { r with checker := successorsPending s.port.image k o.date r.checker }) hreported
  case cleared =>
    exact takeObservation_clears hstate (hnone hopen hn) (hchoose hclears hclearsDates hfirst)
  case unmatched => exact takeObservation_unmatched hstate (hnone hopen hn) (hnone hclears hn')

end Sys2Proof.Machine

/-! # What every command does to the report unit (chapter 9)

Every step changes the report unit by raisings, deviations handed, TAKE DEVIATION, CLEAR URGENT, a threshold written
and the reset alone. These moves are listed here once, and what every step keeps of the report unit is proved for each
move once. -/

namespace Sys2Proof.Machine

open Relation (ReflTransGen)

/-! ## The moves keep the report unit legal (R158, R159, R162, R164, R166) -/

/-- The threshold of the image with the report unit whose ATTENTION it decides (R166). -/
def reporting (s : State) : Nat × ReportUnit := (s.port.image.attention, s.report)

@[simp] theorem reporting_eq_iff {s t : State} :
    reporting t = reporting s ↔ t.port.image.attention = s.port.image.attention ∧ t.report = s.report := Prod.mk_inj

/-- One change of the report unit or of its threshold: an urgent condition raised, a deviation handed, the head taken,
the conditions named cleared, the threshold written, or the reset of POWER_ON and RESTART. -/
inductive ReportMove : Nat × ReportUnit → Nat × ReportUnit → Prop
  | raised {n : Nat} {r : ReportUnit} (c : Urgent) (d : DatedEpoch) : ReportMove (n, r) (n, raiseInReport n c d r)
  | handed {n : Nat} {r : ReportUnit} (d : Deviation) :
      ReportMove (n, r) (n, refreshAttention n (offerDeviation d { r with nextSeq := r.nextSeq + 1 }))
  | headTaken {n : Nat} {r : ReportUnit} :
      ReportMove (n, r) (n, refreshAttention n { r with deviations := r.deviations.tail })
  | cleared {n : Nat} {r : ReportUnit} (set : Nat) : ReportMove (n, r) (n, refreshAttention n (clearNamed set r))
  | thresholdWritten {n : Nat} {r : ReportUnit} (m : Nat) : ReportMove (n, r) (m, refreshAttention m r)
  | reset {n : Nat} {r : ReportUnit} (m : Nat) : ReportMove (n, r) (m, reportReset)

/-- `AttentionLegal` and `DeviationsLegal` of a threshold with its report unit. -/
def ReportLegal (p : Nat × ReportUnit) : Prop := p.2.attention = attentionCalled p.1 p.2 ∧ DeviationsLegal p.2

/-- ATTENTION evaluated again is what it is to be, as it is no part of what it is judged by. -/
theorem refreshAttention_legal (n : Nat) {r : ReportUnit} (h : DeviationsLegal r) :
    ReportLegal (n, refreshAttention n r) := ⟨rfl, h⟩

theorem insertDeviation_length (d : Deviation) (l : List Deviation) : (insertDeviation d l).length = l.length + 1 :=
  (insertDeviation_perm d l).length_eq

theorem insertDeviation_ordered (d : Deviation) {l : List Deviation} (h : l.Pairwise fun a b => b.grade ≤ a.grade) :
    (insertDeviation d l).Pairwise fun a b => b.grade ≤ a.grade := by
  rw [insertDeviation_of_ordered h, List.pairwise_append, List.pairwise_cons]
  refine ⟨h.filter _, ⟨fun x hx => ?below, h.filter _⟩, fun a ha b hb => ?across⟩
  case below => exact (of_decide_eq_true (List.mem_filter.mp hx).2).le
  case across =>
    have habove : d.grade ≤ a.grade := of_decide_eq_true (List.mem_filter.mp ha).2
    rcases List.mem_cons.mp hb with rfl | hb
    · exact habove
    · exact (of_decide_eq_true (List.mem_filter.mp hb).2).le.trans habove

theorem offerDeviation_legal (d : Deviation) {r : ReportUnit} (h : DeviationsLegal r) :
    DeviationsLegal (offerDeviation d r) := by
  obtain ⟨hlength, hordered⟩ := h
  rcases offerDeviation_cases d r with ⟨hroom, heq⟩ | ⟨hfull, _, -, -, heq⟩ | ⟨-, _, -, -, heq⟩ <;> rw [heq]
  · exact ⟨(insertDeviation_length d _).trans_le hroom, insertDeviation_ordered d hordered⟩
  · refine ⟨?_, insertDeviation_ordered d (hordered.sublist (List.dropLast_sublist _))⟩
    rw [insertDeviation_length, List.length_dropLast]
    omega
  · exact ⟨hlength, hordered⟩

theorem ReportMove.legal {p q : Nat × ReportUnit} (m : ReportMove p q) (h : ReportLegal p) : ReportLegal q := by
  obtain ⟨-, hdeviations⟩ := h
  cases m with
  | raised c d => exact refreshAttention_legal _ hdeviations
  | handed d => exact refreshAttention_legal _ (offerDeviation_legal d hdeviations)
  | headTaken =>
    obtain ⟨hlength, hordered⟩ := hdeviations
    exact refreshAttention_legal _ ⟨(List.tail_sublist _).length_le.trans hlength, hordered.tail⟩
  | cleared set => exact refreshAttention_legal _ hdeviations
  | thresholdWritten m => exact refreshAttention_legal m hdeviations
  | reset m => exact ⟨rfl, Nat.zero_le _, .nil⟩

theorem reportMoves_legal {p q : Nat × ReportUnit} (m : ReflTransGen ReportMove p q) (h : ReportLegal p) :
    ReportLegal q := by
  induction m with
  | refl => exact h
  | tail _ last ih => exact last.legal ih

/-! ## Moves from state to state -/

/-- Report unit and threshold of `t` come from those of `s` by moves. -/
def ReportEvolves (s t : State) : Prop := ReflTransGen ReportMove (reporting s) (reporting t)

theorem ReportEvolves.refl (s : State) : ReportEvolves s s := ReflTransGen.refl

theorem ReportEvolves.trans {s t u : State} (hst : ReportEvolves s t) (htu : ReportEvolves t u) : ReportEvolves s u :=
  ReflTransGen.trans hst htu

theorem ReportEvolves.of_kept {s t : State} (h : reporting t = reporting s) : ReportEvolves s t := by
  unfold ReportEvolves
  rw [h]

/-- Moves made after, and before, a change of other blocks. -/
theorem ReportEvolves.after_kept {s t u : State} (h : ReportEvolves t u) (hkept : reporting t = reporting s) :
    ReportEvolves s u := (ReportEvolves.of_kept hkept).trans h

theorem ReportEvolves.then_kept {s t u : State} (h : ReportEvolves s t) (hkept : reporting u = reporting t) :
    ReportEvolves s u := h.trans (.of_kept hkept)

/-- Whichever way a command decides. -/
theorem ReportEvolves.ite {c : Prop} [Decidable c] {s t u : State} (ht : ReportEvolves s t) (hu : ReportEvolves s u) :
    ReportEvolves s (if c then t else u) := by
  split_ifs
  · exact ht
  · exact hu

/-- What a condition guards, a command's point among them (assumption log 1), changes nothing unless it holds. -/
theorem ReportEvolves.guarded {c : Prop} [Decidable c] {s t : State} (h : ReportEvolves s t) :
    ReportEvolves s (if c then t else s) := .ite h (.refl s)

theorem ReportEvolves.foldl {α : Type} {f : State → α → State} (hf : ∀ s a, ReportEvolves s (f s a)) (l : List α)
    (s : State) : ReportEvolves s (l.foldl f s) := by
  induction l generalizing s with
  | nil => exact .refl s
  | cons a rest ih => exact (hf s a).trans (ih _)

theorem raiseUrgent_reportEvolves (c : Urgent) (d : DatedEpoch) (s : State) : ReportEvolves s (raiseUrgent c d s) :=
  .single (.raised c d)

theorem raiseUrgentNow_reportEvolves (c : Urgent) (s : State) : ReportEvolves s (raiseUrgentNow c s) :=
  raiseUrgent_reportEvolves c _ s

theorem handDeviation_reportEvolves (kind : DeviationKind) (slot : Fin 256) (e : CheckEntry) (due : Date)
    (obs : Option (Matched × TimeState)) (s : State) : ReportEvolves s (handDeviation kind slot e due obs s) :=
  .single (.handed _)

/-- A record offered raises EVENT-LOSS, or leaves the report unit (R101). -/
theorem offerRecord_reportEvolves (stamp : Stamp) (body : EventBody) (s : State) :
    ReportEvolves s (offerRecord stamp body s) :=
  .ite ((raiseUrgentNow_reportEvolves .eventLoss _).after_kept rfl) (.of_kept rfl)

theorem offerRecordNow_reportEvolves (body : EventBody) (s : State) : ReportEvolves s (offerRecordNow body s) :=
  offerRecord_reportEvolves _ body s

/-! ## The timetable checker (R137 to R139, R142, R147 to R149) -/

theorem fireMiss_reportEvolves (slot : Fin 256) (s : State) : ReportEvolves s (fireMiss slot s) := by
  unfold fireMiss
  split
  · next e _ =>
    split
    · next dates _ =>
      have hhanded : ReportEvolves s (handDeviation (missKind (missStatus s.line.heard e)) slot e dates.due none
          { s with checker := putEntry slot (some { e with status := missStatus s.line.heard e }) s.checker }) :=
        (handDeviation_reportEvolves _ slot e dates.due none _).after_kept rfl
      exact hhanded.then_kept (by simp)
    · exact .refl s
  · exact .refl s

theorem fireHead_reportEvolves (d : Deadline) (s : State) : ReportEvolves s (fireHead d s) := by
  unfold fireHead
  dsimp only
  split
  · exact .of_kept (by simp)
  · exact (fireMiss_reportEvolves d.slot _).after_kept rfl

theorem fireItems_reportEvolves (n : Nat) (s : State) : ReportEvolves s (fireItems n s) := by
  induction n generalizing s with
  | zero => exact .refl s
  | succ n ih =>
    unfold fireItems
    split
    · exact (fireHead_reportEvolves _ s).trans (ih _)
    · exact .refl s

theorem runDeadlines_reportEvolves (s : State) : ReportEvolves s (runDeadlines s) := fireItems_reportEvolves _ s

theorem handIfAny_reportEvolves (kind : Option DeviationKind) (slot : Fin 256) (e : CheckEntry) (due : Date)
    (obs : Matched × TimeState) (s : State) : ReportEvolves s (handIfAny kind slot e due obs s) := by
  cases kind with
  | some kind => exact handDeviation_reportEvolves kind slot e due _ s
  | none => exact .refl s

theorem handVerdict_reportEvolves (o : Observation) (k : Candidate) (s : State) :
    ReportEvolves s (handVerdict o k s) := handIfAny_reportEvolves _ _ _ _ _ s

theorem satisfyEntry_reportEvolves (o : Observation) (k : Candidate) (s : State) :
    ReportEvolves s (satisfyEntry o k s) := by
  have hhanded : ReportEvolves s (handVerdict o k { s with checker := settleEntry o k s.checker }) :=
    (handVerdict_reportEvolves o k { s with checker := settleEntry o k s.checker }).after_kept (by simp)
  have hran (u : State) (c : Checker) : ReportEvolves u (runDeadlines { u with checker := c }) :=
    (runDeadlines_reportEvolves _).after_kept rfl
  rw [satisfyEntry_eq]
  exact hhanded.trans (hran _ _)

theorem takeObservation_reportEvolves (o : Observation) (s : State) : ReportEvolves s (takeObservation o s) := by
  refine .ite (.of_kept rfl) ?_
  split
  · exact satisfyEntry_reportEvolves o _ s
  · split
    · exact (handDeviation_reportEvolves .cleared _ _ _ _ _).after_kept rfl
    · exact .of_kept rfl

/-! ## Offsets and marks (R19, R49, R60, R67) -/

theorem followTime_reportEvolves (s : State) : ReportEvolves s (followTime s) :=
  (runDeadlines_reportEvolves s).then_kept (by simp [followTime])

theorem announceStep_reportEvolves (old : Date) (ts : TimeState) (s : State) :
    ReportEvolves s (announceStep old ts s) :=
  have hoffered := offerRecord_reportEvolves { date := s.time.date, epoch := s.time.epoch, timeState := ts }
    (.timeStep old s.time.date) s
  .ite (hoffered.trans (raiseUrgent_reportEvolves .timeStepped _ _)) hoffered

theorem discipline_reportEvolves (d : Int) (s : State) : ReportEvolves s (discipline d s).2 :=
  .ite ((announceStep_reportEvolves _ _ _).after_kept rfl) (.of_kept rfl)

theorem giveOffset_reportEvolves (kind : SourceKind) (grade : Nat) (d : Int) (s : State) :
    ReportEvolves s (giveOffset kind grade d s) :=
  (discipline_reportEvolves d s).trans ((followTime_reportEvolves _).after_kept rfl)

theorem enterHoldover_reportEvolves (grade : Nat) (s : State) : ReportEvolves s (enterHoldover grade s) :=
  (raiseUrgentNow_reportEvolves .timeDegraded _).after_kept rfl

theorem loseReference_reportEvolves (s : State) : ReportEvolves s (loseReference s) :=
  .ite ((enterHoldover_reportEvolves 1 _).after_kept rfl) (.of_kept rfl)

theorem closeSecond_reportEvolves (s : State) : ReportEvolves s (closeSecond s) :=
  .ite ((enterHoldover_reportEvolves _ _).after_kept rfl) (.of_kept rfl)

/-- Of what happens at an own mark, the close of the second alone reaches the report unit. -/
theorem markInRun_reportEvolves (second : Nat) (s : State) : ReportEvolves s (markInRun second s) := by
  refine (closeSecond_reportEvolves s).then_kept ?_
  unfold markInRun
  dsimp only
  split_ifs <;> simp

theorem takeMark_reportEvolves (s : State) : ReportEvolves s (takeMark s) := by
  unfold takeMark
  split
  · exact .ite ((markInRun_reportEvolves _ _).after_kept (by simp)) (.of_kept (by simp))
  · exact .refl s

theorem markBeforeStep_reportEvolves (d : Int) (s : State) : ReportEvolves s (markBeforeStep d s) :=
  (takeMark_reportEvolves s).guarded

theorem takePulse_reportEvolves (expected : Date) (a : Arming) (s : State) :
    ReportEvolves s (takePulse expected a s) :=
  ((markBeforeStep_reportEvolves _ _).trans (giveOffset_reportEvolves .reference 1 _ _)).after_kept rfl

theorem meetPulse_reportEvolves (s : State) : ReportEvolves s (meetPulse s) := by
  unfold meetPulse
  split
  · split
    · exact takePulse_reportEvolves _ _ s
    · exact .refl s
  · exact .refl s

/-! ## Scores and frames (R34 to R38, R54) -/

theorem enterWithdrawn_reportEvolves (s : State) : ReportEvolves s (enterWithdrawn s) :=
  (raiseUrgentNow_reportEvolves .lineWithdrawn _).after_kept (by simp)

theorem takeScore_reportEvolves (score : Nat) (s : State) : ReportEvolves s (takeScore score s) :=
  .ite ((enterWithdrawn_reportEvolves _).after_kept rfl) (.of_kept rfl)

theorem duplicateStation_reportEvolves (s : State) : ReportEvolves s (duplicateStation s) :=
  have hraised := raiseUrgentNow_reportEvolves .duplicateStation s
  .ite hraised (hraised.trans ((enterWithdrawn_reportEvolves _).after_kept rfl))

theorem scoreOwnFrame_reportEvolves (how : FrameEnd) (s : State) : ReportEvolves s (scoreOwnFrame how s) := by
  have hscored (w : Bool) (collisions score : Nat) :
      let u : State := { s with line := { s.line with collisions := collisions } }
      ReportEvolves s (if w then u else takeScore score u) :=
    .ite (.of_kept rfl) ((takeScore_reportEvolves _ _).after_kept rfl)
  cases how with
  | lost => exact .refl s
  | completed => exact hscored _ _ _
  | objected => exact hscored _ _ _
  | collided => exact .ite ((duplicateStation_reportEvolves _).after_kept rfl) (hscored _ _ _)

theorem scoreGoodFrame_reportEvolves (own remainder : Bool) (s : State) :
    ReportEvolves s (scoreGoodFrame own remainder s) :=
  .ite ((duplicateStation_reportEvolves s).then_kept rfl)
    (.ite (.refl s) (.ite (.of_kept (by simp)) (takeScore_reportEvolves _ s)))

theorem scoreBadFrame_reportEvolves (remainder : Bool) (s : State) : ReportEvolves s (scoreBadFrame remainder s) :=
  .ite (.of_kept rfl) (.ite (.refl s) (takeScore_reportEvolves _ s))

theorem endGoodFrame_reportEvolves (origin : BitVec 6) (s : State) : ReportEvolves s (endGoodFrame origin s) :=
  .ite ((scoreGoodFrame_reportEvolves _ _ _).after_kept rfl) (.of_kept rfl)

theorem endBadFrame_reportEvolves (why : BadFrame) (s : State) : ReportEvolves s (endBadFrame why s) :=
  .ite ((scoreBadFrame_reportEvolves _ _).after_kept rfl) (.of_kept rfl)

theorem frameEnds_reportEvolves {isTime checkAgrees : Bool} {good : State → State} {s : State}
    (h : ReportEvolves s (good s)) : ReportEvolves s (frameEnds isTime checkAgrees good s) :=
  .guarded (.ite (.ite h (endBadFrame_reportEvolves _ s)) (endBadFrame_reportEvolves _ s))

theorem endOwnFrame_reportEvolves (how : FrameEnd) (f : OwnFrame) (s : State) :
    ReportEvolves s (endOwnFrame how f s) :=
  .ite ((scoreOwnFrame_reportEvolves how _).after_kept (by simp)) (.of_kept rfl)

theorem hearTimeFrame_reportEvolves (f : TimeFrame) (capture : Option Stamp) (s : State) :
    ReportEvolves s (hearTimeFrame f capture s) := by
  refine ReportEvolves.after_kept (t := { s with agreement := restartSilence s.time.elapsed s.agreement }) ?_ rfl
  unfold hearTimeFrame
  dsimp only
  split
  · exact .ite ((markBeforeStep_reportEvolves _ _).trans (giveOffset_reportEvolves .line _ _ _))
      (raiseUrgentNow_reportEvolves .referenceDisagree _).guarded
  · exact .refl _

theorem endTimeFrame_reportEvolves (f : TimeFrame) (s : State) : ReportEvolves s (endTimeFrame f s) := by
  have hend := endGoodFrame_reportEvolves f.origin s
  refine .ite (hend.trans ((hearTimeFrame_reportEvolves f _ _).after_kept ?_)) hend
  split <;> simp

theorem acceptNotice_reportEvolves (f : NoticeFrame) (s : State) : ReportEvolves s (acceptNotice f s) := by
  unfold acceptNotice
  split
  · exact .ite ((takeObservation_reportEvolves _ _).after_kept rfl) (.of_kept rfl)
  · exact .refl s

theorem steerNotice_reportEvolves (k : Fin 62) (f : NoticeFrame) (s : State) :
    ReportEvolves s (steerNotice k f s) :=
  .ite (.of_kept (by simp)) (.ite ((acceptNotice_reportEvolves f _).after_kept (by simp)) (.of_kept (by simp)))

theorem endNotice_reportEvolves (f : NoticeFrame) (s : State) : ReportEvolves s (endNotice f s) := by
  refine (endGoodFrame_reportEvolves f.origin s).trans ?_
  unfold endNotice
  dsimp only
  split
  · exact (steerNotice_reportEvolves _ f _).guarded
  · exact .refl _

theorem endPresence_reportEvolves (f : PresenceFrame) (s : State) : ReportEvolves s (endPresence f s) := by
  refine (endGoodFrame_reportEvolves f.origin s).trans ?_
  unfold endPresence
  dsimp only
  split
  · exact (ReportEvolves.of_kept (by simp)).guarded
  · exact .refl _

/-! ## Field terminals, movement pairs and clock lines (R72, R76 to R79, R87 to R92, R180) -/

theorem takeEdge_reportEvolves (t : Fin 40) (settle : Nat) (level : Bool) (s : State) :
    ReportEvolves s (takeEdge t settle level s) := by
  unfold takeEdge
  dsimp only
  split
  · exact .of_kept rfl
  · exact .ite ((offerRecordNow_reportEvolves _ _).after_kept rfl) (.of_kept rfl)

theorem takeLevel_reportEvolves (t : Fin 40) (level : Bool) (s : State) : ReportEvolves s (takeLevel t level s) :=
  have hnoted : reporting (noteProvingLevel t s.pins.levels[t] level (putLevel t level s)) = reporting s := by simp
  .ite ((takeEdge_reportEvolves t _ level _).after_kept hnoted)
    (.ite ((meetPulse_reportEvolves _).after_kept hnoted) (.of_kept hnoted))

theorem closeMovement_reportEvolves (k : Fin 8) (v : Verdict) (m : MovementStart) (g : Signal) (next : PairState)
    (s : State) : ReportEvolves s (closeMovement k v m g next s) :=
  (offerRecord_reportEvolves g.stamp _ s).then_kept rfl

theorem takeSignal_reportEvolves (k : Fin 8) (c : PairConfig) (g : Signal) (s : State) :
    ReportEvolves s (takeSignal k c g s) := by
  refine .ite (.refl s) ?_
  split
  · exact .of_kept rfl
  · exact .refl s
  · exact closeMovement_reportEvolves k .restarted _ g _ s
  · exact closeMovement_reportEvolves k .restarted _ g _ s
  · exact (closeMovement_reportEvolves k .normal _ g _ s).guarded
  · exact (closeMovement_reportEvolves k .lateEnd _ g _ s).guarded

theorem signalPair_reportEvolves (t : Fin 40) (on : Bool) (b : Burst) (s : State) (k : Fin 8) :
    ReportEvolves s (signalPair t on b s k) := by
  unfold signalPair
  split
  · exact (takeSignal_reportEvolves k _ _ s).guarded.trans (takeSignal_reportEvolves k _ _ _).guarded
  · exact .refl s

theorem takeLimit_reportEvolves (s : State) (k : Fin 8) : ReportEvolves s (takeLimit s k) := by
  unfold takeLimit
  split
  · exact (offerRecordNow_reportEvolves _ s).then_kept rfl
  · exact .refl s
  · exact .refl s

theorem shareChange_reportEvolves (t : Fin 40) (urgent : Bool) (priority : Nat) (on : Bool) (b : Burst) (s : State) :
    ReportEvolves s (shareChange t urgent priority on b s) := by
  have hoffered : ReportEvolves s (changeOffered t on b s) := (offerRecord_reportEvolves b.stamp _ _).after_kept rfl
  rw [shareChange_eq]
  exact hoffered.then_kept (by simp)

theorem recordChange_reportEvolves (t : Fin 40) (on : Bool) (b : Burst) (s : State) :
    ReportEvolves s (recordChange t on b s) := by
  unfold recordChange
  dsimp only
  split
  · exact offerRecord_reportEvolves b.stamp _ s
  · exact shareChange_reportEvolves t false _ on b s
  · exact shareChange_reportEvolves t true _ on b s

theorem provenChange_reportEvolves (t : Fin 40) (on : Bool) (b : Burst) (s : State) :
    ReportEvolves s (provenChange t on b s) :=
  have hobserved (u : State) : ReportEvolves u (observeChange t on b u) :=
    .ite (.refl u) (takeObservation_reportEvolves _ u)
  have hsignalled (u : State) : ReportEvolves u (signalPairs t on b u) := .foldl (signalPair_reportEvolves t on b) _ u
  (((recordChange_reportEvolves t on b s).trans (hobserved _)).trans (hsignalled _)).trans
    (.foldl (fun u k => (takeLimit_reportEvolves u k).guarded) _ _)

theorem settle_reportEvolves (t : Fin 40) (b : Burst) (s : State) : ReportEvolves s (settle t b s) :=
  .ite (.ite ((offerRecordNow_reportEvolves _ _).after_kept rfl) (.of_kept rfl))
    ((provenChange_reportEvolves t _ b _).after_kept rfl)

theorem endPulse_reportEvolves (line : Fin 4) (c : ClockConfig) (p : Pulse) (s : State) :
    ReportEvolves s (endPulse line c p s) :=
  .ite (.of_kept rfl) (.ite ((raiseUrgentNow_reportEvolves .clockLineFault _).after_kept rfl) (.of_kept rfl))

/-! ## Select periods (R160, R164, R187, R190, R192, R193) -/

theorem selectCommand_reportEvolves {early : Bool} {n : Nat} {wellFormed taken : Bool}
    {command : State → CommandEffect} (hc : ∀ u, ReportEvolves u (command u).1) (s : State) :
    ReportEvolves s (selectCommand early n wellFormed taken command s) :=
  have hrefused (r : RefusalCode) : ReportEvolves s (answered (refuse r (clockOutAnswer n s))) := .of_kept rfl
  .ite (.of_kept rfl) (.ite (hrefused _) (.ite (hrefused _) (.ite (hrefused _)
    (((hc (clockOutAnswer n s)).after_kept rfl).then_kept rfl))))

/-- A command's meaning that leaves report unit and image. -/
theorem selectCommand_reportEvolves_of_kept {early : Bool} {n : Nat} {wellFormed taken : Bool}
    {command : State → CommandEffect} (hc : ∀ u, reporting (command u).1 = reporting u) (s : State) :
    ReportEvolves s (selectCommand early n wellFormed taken command s) :=
  selectCommand_reportEvolves (fun u => .of_kept (hc u)) s

/-- CONFIGURE evaluates ATTENTION by the image that it leaves (R166, assumption log 28). -/
theorem configureItem_reportEvolves (p : List Octet) (s : State) : ReportEvolves s (configureItem p s).1 := by
  unfold configureItem
  split
  · split_ifs
    · exact .refl s
    · exact .single (.thresholdWritten _)
  · exact .refl s

theorem startStation_reportEvolves (s : State) : ReportEvolves s (startStation s).1 := by
  have hoffered (u : State) : ReportEvolves u (offerStatesAtStart u) :=
    .foldl (fun u _ => (offerRecordNow_reportEvolves _ u).guarded) _ u
  have hmarker : ReportEvolves s (sampleInputs (offerRecordNow (.start s.events.cause) (runEntered s))) :=
    ((offerRecordNow_reportEvolves (.start s.events.cause) (runEntered s)).after_kept rfl).then_kept (by simp)
  unfold startStation
  split
  · exact .refl s
  · exact (hmarker.trans (hoffered _)).then_kept (by simp [done, carryOutStart, runEntered])

theorem takeHead_reportEvolves (s : State) : ReportEvolves s (takeHead s).1 := by
  unfold takeHead
  split
  · exact .single .headTaken
  · exact .refl s

theorem clearConditions_reportEvolves (set : Nat) (s : State) : ReportEvolves s (clearConditions set s).1 := by
  unfold clearConditions
  split_ifs
  · exact .single (.cleared set)
  · exact .refl s

theorem loadSlot_reportEvolves (slot : Fin 256) (p : List Octet) (s : State) :
    ReportEvolves s (loadSlot slot p s).1 := by
  unfold loadSlot
  split_ifs
  · exact .refl s
  · split
    · split_ifs
      · exact (runDeadlines_reportEvolves _).after_kept rfl
      · exact .refl s
    · exact .refl s

theorem withSlot_reportEvolves {command : Fin 256 → State → CommandEffect}
    (hc : ∀ slot u, ReportEvolves u (command slot u).1) (n : Nat) (u : State) :
    ReportEvolves u (withSlot n command u).1 := by
  unfold withSlot
  split
  · exact hc _ u
  · exact .refl u

theorem takeOldest_reporting (n : Nat) (s : State) : reporting (takeOldest n s).1 = reporting s := by
  unfold takeOldest
  split_ifs <;> rfl

theorem cancelAt_reporting (slot : Fin 256) (s : State) : reporting (cancelAt slot s).1 = reporting s := by
  unfold cancelAt
  split_ifs <;> rfl

theorem setTimeTo_reporting (d : Date) (s : State) : reporting (setTimeTo d s).1 = reporting s := by
  unfold setTimeTo
  split_ifs <;> rfl

theorem setDialTo_reporting (line position : Nat) (s : State) :
    reporting (setDialTo line position s).1 = reporting s := by
  unfold setDialTo
  split
  · unfold setDialAt
    split
    · rfl
    · split_ifs <;> simp [refuse, done]
  · rfl

theorem execPortCommand_reportEvolves (c : PortCommand) (p : SelectPeriod) {s t : State}
    (h : execPortCommand c p s = .next t) : ReportEvolves s t := by
  cases c <;> obtain rfl := Host.Outcome.next.inj h
  case configure => exact selectCommand_reportEvolves (configureItem_reportEvolves p.params) s
  case start => exact selectCommand_reportEvolves startStation_reportEvolves s
  case restart => exact selectCommand_reportEvolves (fun _ => .single (.reset _)) s
  case readStatus => exact selectCommand_reportEvolves_of_kept (fun _ => rfl) s
  case takeEvents => exact selectCommand_reportEvolves_of_kept (takeOldest_reporting _) s
  case peekEvent => exact selectCommand_reportEvolves_of_kept (fun u => by rw [peekAt_fst]) s
  case takeDeviation => exact selectCommand_reportEvolves takeHead_reportEvolves s
  case loadEntry =>
    exact selectCommand_reportEvolves (withSlot_reportEvolves (fun slot => loadSlot_reportEvolves slot _) _) s
  case cancelEntry =>
    exact selectCommand_reportEvolves (withSlot_reportEvolves (fun slot u => .of_kept (cancelAt_reporting slot u)) _) s
  case readEntry => exact selectCommand_reportEvolves (withSlot_reportEvolves (fun _ u => .refl u) _) s
  case readHeard => exact selectCommand_reportEvolves_of_kept (fun u => by rw [readOrigin_fst]) s
  case clearUrgent => exact selectCommand_reportEvolves (clearConditions_reportEvolves _) s
  case setTime => exact selectCommand_reportEvolves_of_kept (setTimeTo_reporting _) s
  case setDial => exact selectCommand_reportEvolves_of_kept (setDialTo_reporting _ _) s

theorem answerOnlySelectPeriod_reportEvolves (octets : Nat) (early : Bool) (s : State) :
    ReportEvolves s (if periodDiscarded early s then discardPeriod octets s else clockOutAnswer octets s) :=
  .ite (.of_kept rfl) (.of_kept rfl)

theorem execUnknownCommand_reportEvolves (octets : List Octet) (early : Bool) {s t : State}
    (h : execUnknownCommand octets early s = .next t) : ReportEvolves s t := by
  unfold execUnknownCommand at h
  split at h
  · exact execPortCommand_reportEvolves _ _ h
  · split_ifs at h
    · obtain rfl := Host.Outcome.next.inj h
      exact answerOnlySelectPeriod_reportEvolves 0 early s
    · obtain rfl := Host.Outcome.next.inj h
      exact selectCommand_reportEvolves_of_kept (fun _ => rfl) s

/-! ## Every command -/

theorem exec_reportEvolves {c : Instr} {s t : State} (h : exec c s = .next t) : ReportEvolves s t := by
  cases c with
  | unknownCommand octets early => exact execUnknownCommand_reportEvolves octets early h
  | configure p => exact execPortCommand_reportEvolves .configure p h
  | start p => exact execPortCommand_reportEvolves .start p h
  | restart p => exact execPortCommand_reportEvolves .restart p h
  | readStatus p => exact execPortCommand_reportEvolves .readStatus p h
  | takeEvents p => exact execPortCommand_reportEvolves .takeEvents p h
  | peekEvent p => exact execPortCommand_reportEvolves .peekEvent p h
  | takeDeviation p => exact execPortCommand_reportEvolves .takeDeviation p h
  | loadEntry p => exact execPortCommand_reportEvolves .loadEntry p h
  | cancelEntry p => exact execPortCommand_reportEvolves .cancelEntry p h
  | readEntry p => exact execPortCommand_reportEvolves .readEntry p h
  | readHeard p => exact execPortCommand_reportEvolves .readHeard p h
  | clearUrgent p => exact execPortCommand_reportEvolves .clearUrgent p h
  | setTime p => exact execPortCommand_reportEvolves .setTime p h
  | setDial p => exact execPortCommand_reportEvolves .setDial p h
  | powerOn => exact Host.Outcome.next.inj h ▸ .single (.reset _)
  | qualificationEnd => exact Host.Outcome.next.inj h ▸ (ReportEvolves.of_kept (by simp [endQualification])).guarded
  | secondMark => exact Host.Outcome.next.inj h ▸ takeMark_reportEvolves s
  | correctionSecondEnd => exact Host.Outcome.next.inj h ▸ (ReportEvolves.of_kept (by simp)).guarded
  | holdoverEntry => exact Host.Outcome.next.inj h ▸ (takeMark_reportEvolves s).guarded
  | presenceDue => exact Host.Outcome.next.inj h ▸ (ReportEvolves.of_kept (by simp)).guarded
  | beginReadyFrame =>
    obtain rfl := Host.Outcome.next.inj h
    split
    · exact (ReportEvolves.of_kept (by simp)).guarded
    · exact .refl s
  | frameOutcome how =>
    obtain rfl := Host.Outcome.next.inj h
    split
    · exact endOwnFrame_reportEvolves how _ s
    · exact .refl s
  | receiveTimeFrame f => exact Host.Outcome.next.inj h ▸ frameEnds_reportEvolves (endTimeFrame_reportEvolves f s)
  | receiveNotice f => exact Host.Outcome.next.inj h ▸ frameEnds_reportEvolves (endNotice_reportEvolves f s)
  | receivePresence f => exact Host.Outcome.next.inj h ▸ frameEnds_reportEvolves (endPresence_reportEvolves f s)
  | receiveBadFrame why => exact Host.Outcome.next.inj h ▸ (endBadFrame_reportEvolves why s).guarded
  | silenceExpiry peer => exact Host.Outcome.next.inj h ▸ (ReportEvolves.of_kept (by simp)).guarded
  | silenceTimerExpiry =>
    exact Host.Outcome.next.inj h ▸ ((followTime_reportEvolves _).after_kept (by simp)).guarded
  | holdoverAging => exact Host.Outcome.next.inj h ▸ (ReportEvolves.of_kept (by simp)).guarded
  | referencePulse =>
    obtain rfl := Host.Outcome.next.inj h
    split
    · exact .ite ((meetPulse_reportEvolves _).after_kept rfl) (.of_kept rfl)
    · exact .refl s
  | referenceLoss => exact Host.Outcome.next.inj h ▸ (loseReference_reportEvolves s).guarded
  | edge terminal level => exact Host.Outcome.next.inj h ▸ takeLevel_reportEvolves terminal level s
  | settleExpiry terminal =>
    obtain rfl := Host.Outcome.next.inj h
    split
    · exact (settle_reportEvolves terminal _ s).guarded
    · exact .refl s
  | limitExpiry pair => exact Host.Outcome.next.inj h ▸ (takeLimit_reportEvolves s pair).guarded
  | openFire => exact Host.Outcome.next.inj h ▸ (runDeadlines_reportEvolves s).guarded
  | missFire => exact Host.Outcome.next.inj h ▸ (runDeadlines_reportEvolves s).guarded
  | supplyChange supply => exact Host.Outcome.next.inj h ▸ .ite (.of_kept (by simp)) (.of_kept (by simp))
  | stepBoundary line => exact Host.Outcome.next.inj h ▸ .of_kept (by simp)
  | pulseStart line => exact Host.Outcome.next.inj h ▸ .of_kept (by simp)
  | pulseEnd line =>
    obtain rfl := Host.Outcome.next.inj h
    split
    · next c p _ => exact (endPulse_reportEvolves line c p s).then_kept (by simp)
    · exact .refl s
  | dominantLeadIn mark =>
    obtain rfl := Host.Outcome.next.inj h
    split_ifs
    · exact .refl s
    · split <;> exact .of_kept (by simp)
  | lineIdle =>
    obtain rfl := Host.Outcome.next.inj h
    split_ifs
    · exact .refl s
    · split <;> exact .of_kept rfl
  | answerOnlySelectPeriod octets early =>
    exact Host.Outcome.next.inj h ▸ answerOnlySelectPeriod_reportEvolves octets early s

/-- The idle station queues a command or lets time pass. -/
theorem idleStep_reporting (s : State) : reporting (idleStep s) = reporting s := by
  unfold idleStep
  split <;> simp

/-- What a step does to the report unit is made of its moves. -/
theorem step_reportEvolves {s t : State} (h : step s = .next t) : ReportEvolves s t := by
  unfold step at h
  split at h
  · next rest _ => exact exec_reportEvolves (s := { s with pending := rest }) h
  · exact .of_kept (Host.Outcome.next.inj h ▸ idleStep_reporting s)

/-- Settles O59: a step's moves each keep the report unit legal. -/
theorem stepKeepsDeviationsAndAttention : Obligations.StepKeepsDeviationsAndAttention := by
  intro s t hattention hdeviations hstep
  exact reportMoves_legal (step_reportEvolves hstep) ⟨hattention, hdeviations⟩

end Sys2Proof.Machine

/-! # Urgent conditions, CLEAR URGENT and TAKE DEVIATION (R160, R162, R164, R166, R197) -/

namespace Sys2Proof.Machine

/-! ## A raising (R162) -/

theorem raiseRecord_eq (d : DatedEpoch) (u : UrgentRecord) :
    raiseRecord d u =
      if u.flag = true then { u with count := min 255 (u.count + 1) }
      else { flag := true, count := 1, first := some d } := rfl

@[simp] theorem raiseRecord_flag (d : DatedEpoch) (u : UrgentRecord) : (raiseRecord d u).flag = true := by
  rw [raiseRecord_eq]
  split_ifs with h
  · exact h
  · rfl

theorem raiseInReport_urgent_same (n : Nat) (c : Urgent) (d : DatedEpoch) (r : ReportUnit) :
    (raiseInReport n c d r).urgent[urgentIndex c] = raiseRecord d r.urgent[urgentIndex c] := by
  simp [raiseInReport]

theorem raiseInReport_urgent_of_ne (n : Nat) {c : Urgent} (d : DatedEpoch) (r : ReportUnit) {k : Fin 7}
    (h : k ≠ urgentIndex c) : (raiseInReport n c d r).urgent[k] = r.urgent[k] := by
  have hplace : (urgentIndex c).val ≠ k.val := fun hk => h (Fin.ext hk.symm)
  simp [raiseInReport, Vector.getElem_set_ne _ _ hplace]

/-- The flag that a raising sets calls for ATTENTION, whatever the threshold (R166). -/
theorem raiseInReport_attention (n : Nat) (c : Urgent) (d : DatedEpoch) (r : ReportUnit) :
    (raiseInReport n c d r).attention = true := by
  refine (attentionCalled_iff n _).mpr (.inl ⟨urgentIndex c, ?_⟩)
  simp

/-! ## TAKE DEVIATION (R160, R197) -/

@[simp] theorem deviationKindCode_mod (k : DeviationKind) : deviationKindCode k % 256 = deviationKindCode k := by
  cases k <;> rfl

theorem flagOctet_two (a b : Bool) : (flagOctet [a, b]).toNat =
    (if a = true then 1 else 0) + (if b = true then 2 else 0) := by
  rw [flagOctet_toNat (by simp)]
  simp only [List.foldr, flag_weight]
  omega

@[simp] theorem differenceOctets_length (ms : Int) : (differenceOctets ms).length = 6 := by simp [differenceOctets]

@[simp] theorem deviationObservationOctets_length (o : DeviationObservation) :
    (deviationObservationOctets o).length = 15 := by simp [deviationObservationOctets]

/-- The difference is written in two's complement of 48 bits (R197). -/
theorem field_differenceOctets (ms : Int) : (field (differenceOctets ms) 0 6 : Int) = ms % 281474976710656 := by
  have hnonneg : 0 ≤ ms % 281474976710656 := Int.emod_nonneg _ (by decide)
  have hlt : ms % 281474976710656 < 281474976710656 := Int.emod_lt_of_pos _ (by decide)
  rw [differenceOctets, field_beOctets, BitVec.toNat_ofInt]
  omega

/-- A deviation record as R197 lays it out. -/
theorem deviationOctets_layout (d : Deviation) : DeviationLayout (deviationOctets d) d := by
  have hseq : d.seq.toNat % 65536 = d.seq.toNat := Nat.mod_eq_of_lt d.seq.isLt
  unfold deviationOctets padTo
  refine ⟨?length, ?seq, ?kind, ?slot, ?grade, ?flags, ?due, fun o ho => ⟨?origin, ?epoch, ?date, ?difference⟩,
    fun hno => ?noObservation⟩
  case length => simp
  case seq => simp [field_append_left, hseq]
  case kind => simp [field_append_right]
  case slot => simp [field_append_right, field_cons_pos]
  case grade => simp [field_append_right, field_cons_pos]
  case flags => simp [field_append_right, field_cons_pos, flagOctet_two]
  case due => simp [dateAt_append_left, dateAt_append_right, dateAt_cons]
  case origin => simp [ho, field_append_right, field_cons_pos, deviationObservationOctets]
  case epoch => simp [ho, field_append_right, field_cons_pos, deviationObservationOctets]
  case date => simp [ho, dateAt_append_left, dateAt_append_right, dateAt_cons, deviationObservationOctets]
  case difference =>
    simp [ho, field_append_right, field_cons_pos, deviationObservationOctets, field_differenceOctets]
  case noObservation => simp [hno, zerosFrom_append, zerosFrom_cons]

theorem exec_takeDeviation {s : State} (hs : s.port.station = .run) :
    exec (.takeDeviation { params := [], early := false }) s = .next (answered (takeHead (clockOutAnswer 1 s))) :=
  congrArg _ (hostCommand_inRun (count := 0) hs rfl (by decide))

theorem takeHead_of_empty {s : State} (h : s.report.deviations = []) : takeHead s = refuse .empty s := by
  simp [takeHead, h]

theorem takeHead_of_head {s : State} {d : Deviation} {rest : List Deviation} (h : s.report.deviations = d :: rest) :
    takeHead s = done (deviationOctets d)
      { s with report := refreshAttention s.port.image.attention { s.report with deviations := rest } } := by
  simp [takeHead, removeHead, h]

/-! ## CLEAR URGENT (R164) -/

theorem exec_clearUrgent {s : State} (set : Octet) (hs : s.port.station = .run) :
    exec (.clearUrgent { params := [set], early := false }) s =
      .next (answered (clearConditions set.toNat (clockOutAnswer 2 s))) := by
  rw [← field_cons_zero set []]
  exact congrArg _ (hostCommand_inRun (count := 1) hs rfl (by decide))

theorem clearConditions_of_beyond {set : Nat} (h : 128 ≤ set) (s : State) :
    clearConditions set s = refuse .range s := if_neg (Nat.not_lt.mpr h)

theorem clearConditions_of_named {set : Nat} (h : set < 128) (s : State) :
    clearConditions set s =
      done [] { s with report := refreshAttention s.port.image.attention (clearNamed set s.report) } := if_pos h

theorem clearNamed_urgent (set : Octet) (r : ReportUnit) (k : Fin 7) :
    (clearNamed set.toNat r).urgent[k] =
      if set.getLsbD k.val = true then { flag := false, count := 0, first := none } else r.urgent[k] := by
  simp [clearNamed, urgentClear, BitVec.testBit_toNat]

/-- Settles O48: the raising by its places, then each command by what it finds. -/
theorem urgentConditionsLatchAndClear : Obligations.UrgentConditionsLatchAndClear := by
  intro s
  refine ⟨fun c d => ⟨?same, fun k hk => ?others, ?attention, ?frame⟩,
    fun hs => ⟨fun set hset => ?beyond, fun set hset => ?cleared, fun hempty => ?empty, fun d rest hhead => ?taken⟩⟩
  case same => exact raiseInReport_urgent_same _ c d s.report
  case others => exact raiseInReport_urgent_of_ne _ d s.report hk
  case attention => exact raiseInReport_attention _ c d s.report
  case frame =>
    rw [← raiseInReport_attention s.port.image.attention c d s.report]
    rfl
  case beyond => exact answersWith_refuse (exec_clearUrgent set hs) (clearConditions_of_beyond hset _)
  case cleared =>
    have hexec := exec_clearUrgent set hs
    rw [clearConditions_of_named hset] at hexec
    exact ⟨_, hexec, rfl, clearNamed_urgent set s.report, attentionCalled_iff _ (clearNamed set.toNat s.report), rfl⟩
  case empty => exact answersWith_refuse (exec_takeDeviation hs) (takeHead_of_empty hempty)
  case taken =>
    have hexec := exec_takeDeviation hs
    rw [takeHead_of_head (s := clockOutAnswer 1 s) hhead] at hexec
    exact ⟨_, hexec, rfl, deviationOctets_layout d, attentionCalled_iff _ { s.report with deviations := rest }, rfl⟩

end Sys2Proof.Machine

/-! # What every command does to a line record (chapter 10)

A line record changes by suspensions, pulses started, proven and unproven, samples of the proving contact, SET DIAL and
a write of its item alone. These moves are listed here once, and what every step keeps of the records is proved for each
move once. -/

namespace Sys2Proof.Machine

open Relation (ReflTransGen)

/-! ## A clock line as its invariants speak of it -/

/-- A line's configuration and record, with whether a suspending cause holds. -/
structure LineView where
  config : Option ClockConfig
  cause : Bool
  record : ClockLine

def lineView (s : State) (k : Fin 4) : LineView :=
  { config := s.port.image.lines[k], cause := suspendingCause s.agreement.timeState s.supply, record := s.clocks[k] }

/-- `ClocksLegal` and `SuspensionLegal` of one line. -/
def LineView.Legal (v : LineView) : Prop :=
  (ClockLineLegal v.record ∧ (v.config = none → v.record = clockLinePowerOn)) ∧
    if v.cause then v.record.state ≠ .active else v.record.state ≠ .suspended

theorem lineViews_legal_iff (s : State) : (∀ k, (lineView s k).Legal) ↔ ClocksLegal s ∧ SuspensionLegal s :=
  forall_and

/-! ## The moves keep a line legal (R170, R171, R173, R177 to R183) -/

/-- One change of a line: the suspending causes taken up, a pulse started, the proving contact sampled, a pulse ended
proven or unproven, the dial set, or the item written. -/
inductive LineMove (v : LineView) : LineView → Prop
  | causeTaken (cause : Bool) : LineMove v { v with cause := cause, record := suspendLine cause v.record }
  | pulseStarts (now : Elapsed) (hconfig : v.config ≠ none) (hactive : v.record.state = .active) :
      LineMove v { v with record := startPulse now v.record }
  | contactSampled (now : Elapsed) (terminal : Fin 40) (old new : Bool) :
      LineMove v { v with record := noteProving now terminal old new v.config v.record }
  | pulseProven (steps : Nat) (hconfig : v.config ≠ none) (hflight : v.record.pulse.isSome = true) :
      LineMove v { v with record := provenPulse steps (releaseDrive v.record) }
  | pulseUnproven (hconfig : v.config ≠ none) (hflight : v.record.pulse.isSome = true) :
      LineMove v { v with record := unprovenPulse (releaseDrive v.record) }
  | dialSet (position : Nat) (hconfig : v.config ≠ none) (hidle : v.record.pulse = none) :
      LineMove v { v with record := placeDial v.cause position v.record }
  | written (config : Option ClockConfig) (cause : Bool) :
      LineMove v { config := config, cause := cause, record := clockLinePowerOn }

theorem suspendLine_legal (cause : Bool) {l : ClockLine} (h : ClockLineLegal l) :
    ClockLineLegal (suspendLine cause l) := by
  obtain ⟨hdriveA, hdriveB, hflight, hdial, hcount, hfault⟩ := h
  unfold suspendLine
  split
  · next hs _ => simp_all [ClockLineLegal]
  · next hs _ => simp_all [ClockLineLegal]
  · exact ⟨hdriveA, hdriveB, hflight, hdial, hcount, hfault⟩

/-- The causes that a line takes up leave it where they put it (R173). -/
theorem suspendLine_suspended (cause : Bool) (l : ClockLine) :
    if cause then (suspendLine cause l).state ≠ .active else (suspendLine cause l).state ≠ .suspended := by
  rw [suspendLine_state]
  cases hs : l.state <;> cases cause <;> simp

theorem startPulse_legal (now : Elapsed) {l : ClockLine} (hactive : l.state = .active) (h : ClockLineLegal l) :
    ClockLineLegal (startPulse now l) := by
  obtain ⟨-, -, -, hdial, hcount, hfault⟩ := h
  exact ⟨by simp [startPulse], by simp [startPulse], fun _ => .inl hactive, hdial, hcount, hfault⟩

/-- A sample of the proving contact leaves all of a record but what it notes in the pulse in flight (R178). -/
theorem noteProving_rest (now : Elapsed) (terminal : Fin 40) (old new : Bool) (c : Option ClockConfig)
    (l : ClockLine) : ∃ p, noteProving now terminal old new c l = { l with pulse := p } ∧
    p.map (·.polarity) = l.pulse.map (·.polarity) ∧ p.isSome = l.pulse.isSome := by
  unfold noteProving
  split
  · next hp =>
    dsimp only
    split_ifs
    · exact ⟨_, rfl, by simp [hp], by simp [hp]⟩
    · exact ⟨_, rfl, rfl, rfl⟩
  · exact ⟨_, rfl, rfl, rfl⟩

theorem noteProving_legal (now : Elapsed) (terminal : Fin 40) (old new : Bool) (c : Option ClockConfig) {l : ClockLine}
    (h : ClockLineLegal l) : ClockLineLegal (noteProving now terminal old new c l) := by
  obtain ⟨hdriveA, hdriveB, hflight, hrest⟩ := h
  obtain ⟨p, hnoted, hpolarity, hsome⟩ := noteProving_rest now terminal old new c l
  rw [hnoted]
  exact ⟨hpolarity ▸ hdriveA, hpolarity ▸ hdriveB, hsome ▸ hflight, hrest⟩

/-- A line that drives a pulse has a dial position and fewer than three unproven pulses (R170, R171). -/
theorem ClockLineLegal.of_flight {l : ClockLine} (h : ClockLineLegal l) (hflight : l.pulse.isSome = true) :
    (l.state = .active ∨ l.state = .suspended) ∧ l.dial ≠ none ∧ l.unproven < 3 := by
  obtain ⟨-, -, hstate, hdial, hcount, hfault⟩ := h
  have hrunning := hstate hflight
  have hset : l.dial ≠ none := fun hnone => by simp [hdial.mp hnone] at hrunning
  have hworking : l.unproven ≠ 3 := fun hthird => by simp [hfault.mpr hthird] at hrunning
  exact ⟨hrunning, hset, by omega⟩

theorem provenPulse_legal (steps : Nat) {l : ClockLine} (hflight : l.pulse.isSome = true) (h : ClockLineLegal l) :
    ClockLineLegal (provenPulse steps (releaseDrive l)) := by
  obtain ⟨hstate, hdial, -⟩ := h.of_flight hflight
  rcases hstate with hs | hs <;> simp [ClockLineLegal, provenPulse, releaseDrive, hs, hdial]

theorem unprovenPulse_legal {l : ClockLine} (hflight : l.pulse.isSome = true) (h : ClockLineLegal l) :
    ClockLineLegal (unprovenPulse (releaseDrive l)) := by
  obtain ⟨hstate, hdial, hcount⟩ := h.of_flight hflight
  by_cases hthird : saturatingAdd 3 l.unproven 1 = 3
  · simp [ClockLineLegal, unprovenPulse, releaseDrive, hthird, hdial]
  · rcases hstate with hs | hs <;> simp_all [ClockLineLegal, unprovenPulse, releaseDrive, saturatingAdd]

/-- The end of an unproven pulse leaves the state, or puts the line into FAULT (R180). -/
theorem unprovenPulse_state (l : ClockLine) :
    (unprovenPulse l).state = l.state ∨ (unprovenPulse l).state = .fault := by
  unfold unprovenPulse
  dsimp only
  split_ifs
  · exact .inr rfl
  · exact .inl rfl

/-- SET DIAL leaves a line ACTIVE or SUSPENDED (R182). -/
theorem dialState_running (cause : Bool) (st : ClockState) :
    dialState cause st = .active ∨ dialState cause st = .suspended := by
  cases st <;> cases cause <;> simp [dialState]

theorem placeDial_legal (cause : Bool) (position : Nat) {l : ClockLine} (hidle : l.pulse = none)
    (h : ClockLineLegal l) : ClockLineLegal (placeDial cause position l) := by
  obtain ⟨hdriveA, hdriveB, -, -, -, -⟩ := h
  rcases dialState_running cause l.state with hs | hs <;>
    exact ⟨hdriveA, hdriveB, by simp [placeDial, hidle], by simp [placeDial, hs], by simp [placeDial],
      by simp [placeDial, hs]⟩

/-- A line that stood where the causes put it stands there after a SET DIAL (R173, R182). -/
theorem dialState_suspended {cause : Bool} {st : ClockState} (h : if cause then st ≠ .active else st ≠ .suspended) :
    if cause then dialState cause st ≠ .active else dialState cause st ≠ .suspended := by
  cases st <;> cases cause <;> simp_all [dialState]

theorem LineMove.legal {v w : LineView} (m : LineMove v w) (h : v.Legal) : w.Legal := by
  obtain ⟨⟨hrecord, hunconfigured⟩, hsuspension⟩ := h
  cases m with
  | causeTaken cause =>
    refine ⟨⟨suspendLine_legal cause hrecord, fun hnone => ?_⟩, suspendLine_suspended cause _⟩
    rw [hunconfigured hnone]
    rfl
  | pulseStarts now hconfig hactive =>
    exact ⟨⟨startPulse_legal now hactive hrecord, fun hnone => absurd hnone hconfig⟩, hsuspension⟩
  | contactSampled now terminal old new =>
    refine ⟨⟨noteProving_legal now terminal old new _ hrecord, fun hnone => ?_⟩, ?_⟩
    · rw [hnone]
      exact hunconfigured hnone
    · obtain ⟨p, hnoted, -⟩ := noteProving_rest now terminal old new v.config v.record
      simpa [hnoted] using hsuspension
  | pulseProven steps hconfig hflight =>
    exact ⟨⟨provenPulse_legal steps hflight hrecord, fun hnone => absurd hnone hconfig⟩, hsuspension⟩
  | pulseUnproven hconfig hflight =>
    refine ⟨⟨unprovenPulse_legal hflight hrecord, fun hnone => absurd hnone hconfig⟩, ?_⟩
    rcases unprovenPulse_state (releaseDrive v.record) with hs | hs
    · dsimp only
      rw [hs]
      exact hsuspension
    · simp [hs]
  | dialSet position hconfig hidle =>
    exact ⟨⟨placeDial_legal v.cause position hidle hrecord, fun hnone => absurd hnone hconfig⟩,
      dialState_suspended hsuspension⟩
  | written config cause => exact ⟨⟨clockLinePowerOn_legal, fun _ => rfl⟩, by cases cause <;> simp [clockLinePowerOn]⟩

theorem lineMoves_legal {v w : LineView} (m : ReflTransGen LineMove v w) (h : v.Legal) : w.Legal := by
  induction m with
  | refl => exact h
  | tail _ last ih => exact last.legal ih

/-! ## Moves from state to state -/

/-- Each line of `t` comes from that of `s` by moves. -/
def ClocksEvolve (s t : State) : Prop := ∀ k, ReflTransGen LineMove (lineView s k) (lineView t k)

/-- What the lines are read from. -/
def clockDriver (s : State) : Vector (Option ClockConfig) 4 × Bool × Vector ClockLine 4 :=
  (s.port.image.lines, suspendingCause s.agreement.timeState s.supply, s.clocks)

@[simp] theorem clockDriver_eq_iff {s t : State} :
    clockDriver t = clockDriver s ↔ t.port.image.lines = s.port.image.lines ∧
      suspendingCause t.agreement.timeState t.supply = suspendingCause s.agreement.timeState s.supply ∧
      t.clocks = s.clocks := by
  simp [clockDriver]

theorem ClocksEvolve.refl (s : State) : ClocksEvolve s s := fun _ => .refl

theorem ClocksEvolve.trans {s t u : State} (hst : ClocksEvolve s t) (htu : ClocksEvolve t u) : ClocksEvolve s u :=
  fun k => (hst k).trans (htu k)

theorem ClocksEvolve.of_kept {s t : State} (h : clockDriver t = clockDriver s) : ClocksEvolve s t := by
  obtain ⟨hlines, hcause, hclocks⟩ := clockDriver_eq_iff.mp h
  intro k
  have hview : lineView t k = lineView s k := by simp only [lineView, hlines, hcause, hclocks]
  rw [hview]

/-- Moves made after, and before, a change of other blocks. -/
theorem ClocksEvolve.after_kept {s t u : State} (h : ClocksEvolve t u) (hkept : clockDriver t = clockDriver s) :
    ClocksEvolve s u := (ClocksEvolve.of_kept hkept).trans h

theorem ClocksEvolve.then_kept {s t u : State} (h : ClocksEvolve s t) (hkept : clockDriver u = clockDriver t) :
    ClocksEvolve s u := h.trans (.of_kept hkept)

/-- Whichever way a command decides. -/
theorem ClocksEvolve.ite {c : Prop} [Decidable c] {s t u : State} (ht : ClocksEvolve s t) (hu : ClocksEvolve s u) :
    ClocksEvolve s (if c then t else u) := by
  split_ifs
  · exact ht
  · exact hu

/-- What a condition guards, a command's point among them (assumption log 1), changes nothing unless it holds. -/
theorem ClocksEvolve.guarded {c : Prop} [Decidable c] {s t : State} (h : c → ClocksEvolve s t) :
    ClocksEvolve s (if c then t else s) := by
  split_ifs with hc
  · exact h hc
  · exact .refl s

/-- One record set, the rest of the state as it was. -/
theorem ClocksEvolve.of_set {s : State} {line : Fin 4} {l : ClockLine}
    (m : ReflTransGen LineMove (lineView s line) { lineView s line with record := l }) :
    ClocksEvolve s { s with clocks := s.clocks.set line l } :=
  fun k => forall_set (p := fun k l => ReflTransGen LineMove (lineView s k) { lineView s k with record := l }) m
    (fun _ => .refl) k

/-! ## Decision, suspension, the end of a pulse (R173, R176 to R180) -/

/-- A pulse is due in RUN alone, on a configured ACTIVE line without a pulse in flight (R176, R184). -/
theorem pulseDue_called {s : State} {k : Fin 4} (h : pulseDue s k = true) :
    s.port.station = .run ∧ s.port.image.lines[k] ≠ none ∧ s.clocks[k].state = .active ∧ s.clocks[k].pulse = none := by
  unfold pulseDue at h
  split at h
  · next hc =>
    obtain ⟨hrun, hcalled⟩ := Bool.and_eq_true_iff.mp h
    obtain ⟨hactive, hidle, -⟩ := pulseCalled_active hcalled
    exact ⟨by simpa [inRun] using hrun, by simp [hc], hactive, hidle⟩
  · simp at h

theorem decidedLine_moves (s : State) (k : Fin 4) :
    ReflTransGen LineMove (lineView s k) { lineView s k with record := decidedLine s k } := by
  unfold decidedLine
  split_ifs with hdue
  · obtain ⟨-, hconfig, hactive, -⟩ := pulseDue_called hdue
    exact .single (.pulseStarts _ hconfig hactive)
  · exact .refl

theorem decideLine_clocksEvolve (line : Fin 4) (s : State) : ClocksEvolve s (decideLine line s) :=
  .of_set (decidedLine_moves s line)

theorem decideLines_clocksEvolve (s : State) : ClocksEvolve s (decideLines s) := by
  intro k
  have hview : lineView (decideLines s) k = { lineView s k with record := decidedLine s k } := by
    rw [← decideLines_clocks]
    rfl
  rw [hview]
  exact decidedLine_moves s k

/-- Whatever has become of time state and supply, the lines take it up (R173). -/
theorem refreshSuspension_clocksEvolve {s u : State}
    (h : u.port.image.lines = s.port.image.lines ∧ u.clocks = s.clocks) : ClocksEvolve s (refreshSuspension u) := by
  obtain ⟨hlines, hclocks⟩ := h
  intro k
  have hview : lineView (refreshSuspension u) k = { lineView s k with
      cause := suspendingCause u.agreement.timeState u.supply
      record := suspendLine (suspendingCause u.agreement.timeState u.supply) s.clocks[k] } := by
    simp only [lineView, refreshSuspension_clocks, refreshSuspension_frame, hlines, hclocks]
  rw [hview]
  exact .single (.causeTaken _)

theorem followTime_clocksEvolve {s u : State}
    (h : u.port.image.lines = s.port.image.lines ∧ u.clocks = s.clocks) : ClocksEvolve s (followTime u) :=
  (refreshSuspension_clocksEvolve (u := runDeadlines u) (by simpa using h)).trans (decideLines_clocksEvolve _)

theorem takeSupply_clocksEvolve (v : Supply) (s : State) : ClocksEvolve s (takeSupply v s) :=
  (refreshSuspension_clocksEvolve (s := s) (u := { s with supply := v }) ⟨rfl, rfl⟩).trans (decideLines_clocksEvolve _)

/-- Only a configured line ends a pulse, and one in flight (R177). -/
theorem endedPulse_flight {s : State} {k : Fin 4} {c : ClockConfig} {p : Pulse} (h : endedPulse s k = some (c, p)) :
    s.port.image.lines[k] = some c ∧ s.clocks[k].pulse = some p := by
  unfold endedPulse at h
  split at h
  · split_ifs at h
    simp_all
  · simp at h

theorem endPulse_clocksEvolve {s : State} {line : Fin 4} {c : ClockConfig} {p : Pulse}
    (h : endedPulse s line = some (c, p)) : ClocksEvolve s (endPulse line c p s) := by
  obtain ⟨hc, hp⟩ := endedPulse_flight h
  have hconfig : (lineView s line).config ≠ none := Option.ne_none_iff_exists'.mpr ⟨c, hc⟩
  have hflight : (lineView s line).record.pulse.isSome = true := Option.isSome_iff_exists.mpr ⟨p, hp⟩
  have hunproven : ClocksEvolve s { s with
      clocks := s.clocks.set line (unprovenPulse (releaseDrive s.clocks[line])) } :=
    .of_set (.single (.pulseUnproven hconfig hflight))
  exact .ite (.of_set (.single (.pulseProven (dialSteps c) hconfig hflight)))
    (.ite (hunproven.then_kept rfl) hunproven)

theorem noteProvingLevel_clocksEvolve (terminal : Fin 40) (old new : Bool) (s : State) :
    ClocksEvolve s (noteProvingLevel terminal old new s) := by
  intro k
  have hview : lineView (noteProvingLevel terminal old new s) k = { lineView s k with
      record := noteProving s.time.elapsed terminal old new s.port.image.lines[k] s.clocks[k] } := by
    rw [← noteProvingLevel_clocks]
    rfl
  rw [hview]
  exact .single (.contactSampled _ terminal old new)

/-! ## Offsets, marks and frames (R49, R54, R60, R66, R67) -/

theorem giveOffset_clocksEvolve (kind : SourceKind) (grade : Nat) (d : Int) {s u : State}
    (h : u.port.image.lines = s.port.image.lines ∧ u.clocks = s.clocks) :
    ClocksEvolve s (giveOffset kind grade d u) :=
  followTime_clocksEvolve (by simpa using h)

/-- HOLDOVER suspends no line that the settled time state before it did not (R173). -/
theorem suspendingCause_holdover {ts : TimeState} (h : settledTimeState ts = true) (v : Supply) :
    suspendingCause .holdover v = suspendingCause ts v := by
  rw [Bool.eq_iff_iff, suspendingCause_iff, suspendingCause_iff]
  cases ts <;> simp_all [settledTimeState]

/-- The close of an own second suspends no line and resumes none: it finds the station AGREED, or leaves the time state
(R49, R60). -/
theorem closeSecond_cause (s : State) : suspendingCause (closeSecond s).agreement.timeState s.supply =
    suspendingCause s.agreement.timeState s.supply := by
  unfold closeSecond
  dsimp only
  split_ifs with h
  · rw [agreed_of_closedCount h]
    exact suspendingCause_holdover rfl s.supply
  · rfl

theorem takeMark_clockDriver (s : State) : clockDriver (takeMark s) = clockDriver s := by
  unfold takeMark
  split
  · split_ifs
    · have hcause := closeSecond_cause (clearMark s)
      simpa [markInRun_agreement] using hcause
    · simp
  · rfl

theorem meetPulse_clocksEvolve (s : State) : ClocksEvolve s (meetPulse s) := by
  unfold meetPulse
  split
  · split
    · exact giveOffset_clocksEvolve _ _ _ (by simp)
    · exact .refl s
  · exact .refl s

/-- A REFERENCED station goes to HOLDOVER, and neither of the two suspends (R67, R173). -/
theorem loseReference_clockDriver (s : State) : clockDriver (loseReference s) = clockDriver s := by
  unfold loseReference
  dsimp only
  split_ifs with h
  · simpa [enterHoldover, h] using suspendingCause_holdover rfl s.supply
  · rfl

theorem hearTimeFrame_clocksEvolve (f : TimeFrame) (capture : Option Stamp) (s : State) :
    ClocksEvolve s (hearTimeFrame f capture s) := by
  have hrestarted : clockDriver { s with agreement := restartSilence s.time.elapsed s.agreement } = clockDriver s := by
    simp
  unfold hearTimeFrame
  dsimp only
  split
  · split_ifs
    · exact giveOffset_clocksEvolve _ _ _ (by simp)
    · exact .of_kept (by simp)
    · exact .of_kept hrestarted
  · exact .of_kept hrestarted

theorem endTimeFrame_clocksEvolve (f : TimeFrame) (s : State) : ClocksEvolve s (endTimeFrame f s) := by
  refine .ite ((hearTimeFrame_clocksEvolve f _ _).after_kept ?_) (.of_kept (by simp))
  split <;> simp

theorem frameEnds_clocksEvolve {isTime checkAgrees : Bool} {good : State → State} {s : State}
    (h : ClocksEvolve s (good s)) : ClocksEvolve s (frameEnds isTime checkAgrees good s) :=
  have hbad (why : BadFrame) : ClocksEvolve s (endBadFrame why s) := .of_kept (by simp)
  .guarded fun _ => .ite (.ite h (hbad _)) (hbad _)

theorem takeLevel_clocksEvolve (t : Fin 40) (level : Bool) (s : State) : ClocksEvolve s (takeLevel t level s) :=
  have hnoted : ClocksEvolve s (noteProvingLevel t s.pins.levels[t] level (putLevel t level s)) :=
    (noteProvingLevel_clocksEvolve t _ level _).after_kept (by simp)
  .ite (hnoted.then_kept (by simp)) (.ite (hnoted.trans (meetPulse_clocksEvolve _)) hnoted)

/-! ## Select periods (R169, R182, R183, R187) -/

theorem selectCommand_clocksEvolve {early : Bool} {n : Nat} {wellFormed taken : Bool}
    {command : State → CommandEffect}
    (hc : taken = true → ClocksEvolve (clockOutAnswer n s) (command (clockOutAnswer n s)).1) :
    ClocksEvolve s (selectCommand early n wellFormed taken command s) := by
  have hrefused (r : RefusalCode) : ClocksEvolve s (answered (refuse r (clockOutAnswer n s))) := .of_kept rfl
  unfold selectCommand
  dsimp only
  split_ifs with _ _ _ htaken
  · exact .of_kept rfl
  · exact hrefused _
  · exact hrefused _
  · exact hrefused _
  · exact ((hc (by simpa using htaken)).after_kept rfl).then_kept rfl

/-- A command's meaning that leaves the lines. -/
theorem selectCommand_clocksEvolve_of_kept {early : Bool} {n : Nat} {wellFormed taken : Bool}
    {command : State → CommandEffect} (hc : ∀ u, clockDriver (command u).1 = clockDriver u) (s : State) :
    ClocksEvolve s (selectCommand early n wellFormed taken command s) :=
  selectCommand_clocksEvolve fun _ => .of_kept (hc _)

/-- A write to a line's item sets configuration and record of that line together (R169). -/
theorem writeItem_clocksEvolve (i : ImageItem) (s : State) : ClocksEvolve s (writeItem i s) := by
  by_cases hi : ∃ k c, i = .line k c
  · obtain ⟨line, c, rfl⟩ := hi
    intro k
    by_cases hk : k = line
    · subst hk
      have hview : lineView (writeItem (.line k c) s) k =
          { config := c, cause := (lineView s k).cause, record := clockLinePowerOn } := by
        simp [lineView, writeItem, writeImage, clocksAfterWrite]
      rw [hview]
      exact .single (.written c _)
    · have hview : lineView (writeItem (.line line c) s) k = lineView s k := by
        have hne : (line : Nat) ≠ k := fun h => hk (Fin.ext h.symm)
        simp [lineView, writeItem, writeImage, clocksAfterWrite, Vector.getElem_set_ne, hne]
      rw [hview]
  · refine .of_kept ?_
    cases i <;> simp_all [writeItem, writeImage, clocksAfterWrite]

theorem configureItem_clocksEvolve (p : List Octet) (s : State) : ClocksEvolve s (configureItem p s).1 := by
  unfold configureItem
  split
  · split_ifs
    · exact .refl s
    · exact writeItem_clocksEvolve _ s
  · exact .refl s

/-- From NOT STARTED to ACQUIRING a suspending cause holds throughout (R173, R192). -/
theorem startStation_clockDriver {s : State} (h : s.agreement.timeState = .notStarted) :
    clockDriver (startStation s).1 = clockDriver s := by
  unfold startStation
  split
  · rfl
  · simp [done, carryOutStart_rest, agreementAtStart, suspendingCause, h]

/-- RESTART is a suspension by the time state NOT STARTED (R183). -/
theorem clockAfterRestart_eq (l : ClockLine) : clockAfterRestart l = suspendLine true l := by
  obtain ⟨state, _, _, _, _, _, _, _⟩ := l
  cases state <;> rfl

theorem restartBlocks_clocksEvolve (s : State) : ClocksEvolve s (restartBlocks s) := by
  intro k
  have hview : lineView (restartBlocks s) k =
      { lineView s k with cause := true, record := suspendLine true s.clocks[k] } := by
    simp [lineView, restartBlocks, agreementReset, suspendingCause, clockAfterRestart_eq]
  rw [hview]
  exact .single (.causeTaken true)

/-- The dial placed on a line, before the decision of R176 (R182). -/
def dialPlaced (k : Fin 4) (position : Nat) (s : State) : State :=
  { s with
    clocks := s.clocks.set k (placeDial (suspendingCause s.agreement.timeState s.supply) position s.clocks[k]) }

theorem dialLine_eq (k : Fin 4) (position : Nat) (s : State) :
    dialLine k position s = decideLine k (dialPlaced k position s) := rfl

theorem setDialTo_clocksEvolve (line position : Nat) (s : State) : ClocksEvolve s (setDialTo line position s).1 := by
  unfold setDialTo
  split
  · next k _ =>
    unfold setDialAt
    split
    · exact .refl s
    · next c hc =>
      split_ifs with hflight
      · exact .refl s
      · exact .refl s
      · have hplaced : ClocksEvolve s (dialPlaced k position s) :=
          .of_set (.single (.dialSet position (by simp [lineView, hc]) (by simpa [lineView] using hflight)))
        exact hplaced.trans (decideLine_clocksEvolve k _)
  · exact .refl s

theorem takeOldest_clockDriver (n : Nat) (s : State) : clockDriver (takeOldest n s).1 = clockDriver s := by
  unfold takeOldest
  split_ifs <;> rfl

theorem takeHead_clockDriver (s : State) : clockDriver (takeHead s).1 = clockDriver s := by
  unfold takeHead
  split <;> rfl

theorem loadSlot_clockDriver (slot : Fin 256) (p : List Octet) (s : State) :
    clockDriver (loadSlot slot p s).1 = clockDriver s := by
  unfold loadSlot
  split_ifs
  · rfl
  · split
    · split_ifs
      · simp [done]
      · rfl
    · rfl

theorem cancelAt_clockDriver (slot : Fin 256) (s : State) : clockDriver (cancelAt slot s).1 = clockDriver s := by
  unfold cancelAt
  split_ifs <;> rfl

theorem withSlot_clockDriver {command : Fin 256 → State → CommandEffect}
    (hc : ∀ slot u, clockDriver (command slot u).1 = clockDriver u) (n : Nat) (u : State) :
    clockDriver (withSlot n command u).1 = clockDriver u := by
  unfold withSlot
  split
  · exact hc _ u
  · rfl

theorem clearConditions_clockDriver (set : Nat) (s : State) :
    clockDriver (clearConditions set s).1 = clockDriver s := by
  unfold clearConditions
  split_ifs <;> rfl

theorem setTimeTo_clockDriver (d : Date) (s : State) : clockDriver (setTimeTo d s).1 = clockDriver s := by
  unfold setTimeTo
  split_ifs <;> rfl

/-- The time state is NOT STARTED outside RUN (R48, R64). -/
theorem StationLegal.notStarted {s : State} (h : StationLegal s) (hs : s.port.station ≠ .run) :
    s.agreement.timeState = .notStarted := by
  obtain ⟨-, hrun⟩ := h
  exact not_not.mp fun hts => hs (hrun.mpr hts)

theorem execPortCommand_clocksEvolve (c : PortCommand) (p : SelectPeriod) {s t : State} (hs : StationLegal s)
    (h : execPortCommand c p s = .next t) : ClocksEvolve s t := by
  cases c <;> obtain rfl := Host.Outcome.next.inj h
  case configure => exact selectCommand_clocksEvolve fun _ => configureItem_clocksEvolve p.params _
  case start =>
    refine selectCommand_clocksEvolve fun htaken => .of_kept (startStation_clockDriver (hs.notStarted ?_))
    have hconfig : s.port.station = .config := by simpa [inConfig] using htaken
    simp [hconfig]
  case restart => exact selectCommand_clocksEvolve fun _ => restartBlocks_clocksEvolve _
  case readStatus => exact selectCommand_clocksEvolve_of_kept (fun _ => rfl) s
  case takeEvents => exact selectCommand_clocksEvolve_of_kept (takeOldest_clockDriver _) s
  case peekEvent => exact selectCommand_clocksEvolve_of_kept (fun u => by rw [peekAt_fst]) s
  case takeDeviation => exact selectCommand_clocksEvolve_of_kept takeHead_clockDriver s
  case loadEntry =>
    exact selectCommand_clocksEvolve_of_kept (withSlot_clockDriver (fun slot => loadSlot_clockDriver slot _) _) s
  case cancelEntry => exact selectCommand_clocksEvolve_of_kept (withSlot_clockDriver cancelAt_clockDriver _) s
  case readEntry => exact selectCommand_clocksEvolve_of_kept (withSlot_clockDriver (fun _ _ => rfl) _) s
  case readHeard => exact selectCommand_clocksEvolve_of_kept (fun u => by rw [readOrigin_fst]) s
  case clearUrgent => exact selectCommand_clocksEvolve_of_kept (clearConditions_clockDriver _) s
  case setTime => exact selectCommand_clocksEvolve_of_kept (setTimeTo_clockDriver _) s
  case setDial => exact selectCommand_clocksEvolve fun _ => setDialTo_clocksEvolve _ _ _

theorem answerOnlySelectPeriod_clocksEvolve (octets : Nat) (early : Bool) (s : State) :
    ClocksEvolve s (if periodDiscarded early s then discardPeriod octets s else clockOutAnswer octets s) :=
  .ite (.of_kept rfl) (.of_kept rfl)

theorem execUnknownCommand_clocksEvolve (octets : List Octet) (early : Bool) {s t : State} (hs : StationLegal s)
    (h : execUnknownCommand octets early s = .next t) : ClocksEvolve s t := by
  unfold execUnknownCommand at h
  split at h
  · exact execPortCommand_clocksEvolve _ _ hs h
  · split_ifs at h
    · obtain rfl := Host.Outcome.next.inj h
      exact answerOnlySelectPeriod_clocksEvolve 0 early s
    · obtain rfl := Host.Outcome.next.inj h
      exact selectCommand_clocksEvolve_of_kept (fun _ => rfl) s

/-! ## Every command -/

theorem afterPowerOn_clocksEvolve (s : State) : ClocksEvolve s (afterPowerOn s) := by
  intro k
  have hview : lineView (afterPowerOn s) k = { config := none, cause := true, record := clockLinePowerOn } := by
    simp [lineView, afterPowerOn, State.reset, servicePortPowerOn, imageDefault, agreementReset, suspendingCause]
  rw [hview]
  exact .single (.written none true)

/-- The first sample of the supply finds the station NOT STARTED, which suspends whatever the supply (R172, R173). -/
theorem endQualification_clockDriver {s : State} (h : s.agreement.timeState = .notStarted) :
    clockDriver (endQualification s) = clockDriver s := by
  simp [endQualification, suspendingCause, h]

theorem exec_clocksEvolve {c : Instr} {s t : State} (hs : StationLegal s) (h : exec c s = .next t) :
    ClocksEvolve s t := by
  cases c with
  | unknownCommand octets early => exact execUnknownCommand_clocksEvolve octets early hs h
  | configure p => exact execPortCommand_clocksEvolve .configure p hs h
  | start p => exact execPortCommand_clocksEvolve .start p hs h
  | restart p => exact execPortCommand_clocksEvolve .restart p hs h
  | readStatus p => exact execPortCommand_clocksEvolve .readStatus p hs h
  | takeEvents p => exact execPortCommand_clocksEvolve .takeEvents p hs h
  | peekEvent p => exact execPortCommand_clocksEvolve .peekEvent p hs h
  | takeDeviation p => exact execPortCommand_clocksEvolve .takeDeviation p hs h
  | loadEntry p => exact execPortCommand_clocksEvolve .loadEntry p hs h
  | cancelEntry p => exact execPortCommand_clocksEvolve .cancelEntry p hs h
  | readEntry p => exact execPortCommand_clocksEvolve .readEntry p hs h
  | readHeard p => exact execPortCommand_clocksEvolve .readHeard p hs h
  | clearUrgent p => exact execPortCommand_clocksEvolve .clearUrgent p hs h
  | setTime p => exact execPortCommand_clocksEvolve .setTime p hs h
  | setDial p => exact execPortCommand_clocksEvolve .setDial p hs h
  | powerOn => exact Host.Outcome.next.inj h ▸ afterPowerOn_clocksEvolve s
  | qualificationEnd =>
    refine Host.Outcome.next.inj h ▸ .guarded fun hdue => .of_kept (endQualification_clockDriver (hs.notStarted ?_))
    simp [((qualificationDue_iff s).mp hdue).1]
  | secondMark => exact Host.Outcome.next.inj h ▸ .of_kept (takeMark_clockDriver s)
  | correctionSecondEnd => exact Host.Outcome.next.inj h ▸ .guarded fun _ => .of_kept (by simp)
  | holdoverEntry => exact Host.Outcome.next.inj h ▸ .guarded fun _ => .of_kept (takeMark_clockDriver s)
  | presenceDue => exact Host.Outcome.next.inj h ▸ .guarded fun _ => .of_kept (by simp)
  | beginReadyFrame =>
    obtain rfl := Host.Outcome.next.inj h
    split
    · exact .guarded fun _ => .of_kept (by simp)
    · exact .refl s
  | frameOutcome how =>
    obtain rfl := Host.Outcome.next.inj h
    split
    · exact .of_kept (by simp)
    · exact .refl s
  | receiveTimeFrame f => exact Host.Outcome.next.inj h ▸ frameEnds_clocksEvolve (endTimeFrame_clocksEvolve f s)
  | receiveNotice f => exact Host.Outcome.next.inj h ▸ frameEnds_clocksEvolve (.of_kept (by simp))
  | receivePresence f => exact Host.Outcome.next.inj h ▸ frameEnds_clocksEvolve (.of_kept (by simp))
  | receiveBadFrame why => exact Host.Outcome.next.inj h ▸ .guarded fun _ => .of_kept (by simp)
  | silenceExpiry peer => exact Host.Outcome.next.inj h ▸ .guarded fun _ => .of_kept (by simp)
  | silenceTimerExpiry =>
    exact Host.Outcome.next.inj h ▸ .guarded fun _ => followTime_clocksEvolve ⟨rfl, rfl⟩
  | holdoverAging => exact Host.Outcome.next.inj h ▸ .guarded fun _ => .of_kept (by simp)
  | referencePulse =>
    obtain rfl := Host.Outcome.next.inj h
    split
    · exact .ite ((meetPulse_clocksEvolve _).after_kept (by simp)) (.of_kept (by simp))
    · exact .refl s
  | referenceLoss => exact Host.Outcome.next.inj h ▸ .guarded fun _ => .of_kept (loseReference_clockDriver s)
  | edge terminal level => exact Host.Outcome.next.inj h ▸ takeLevel_clocksEvolve terminal level s
  | settleExpiry terminal =>
    obtain rfl := Host.Outcome.next.inj h
    split
    · exact .guarded fun _ => .of_kept (by simp)
    · exact .refl s
  | limitExpiry pair => exact Host.Outcome.next.inj h ▸ .guarded fun _ => .of_kept (by simp)
  | openFire => exact Host.Outcome.next.inj h ▸ .guarded fun _ => .of_kept (by simp)
  | missFire => exact Host.Outcome.next.inj h ▸ .guarded fun _ => .of_kept (by simp)
  | supplyChange supply =>
    exact Host.Outcome.next.inj h ▸ .ite (.of_kept (by simp)) ((takeSupply_clocksEvolve supply _).after_kept (by simp))
  | stepBoundary line =>
    exact Host.Outcome.next.inj h ▸ (decideLine_clocksEvolve line _).after_kept (by simp)
  | pulseStart line => exact Host.Outcome.next.inj h ▸ decideLine_clocksEvolve line s
  | pulseEnd line =>
    obtain rfl := Host.Outcome.next.inj h
    split
    · next hended => exact (endPulse_clocksEvolve hended).trans (decideLine_clocksEvolve line _)
    · exact .refl s
  | dominantLeadIn mark =>
    obtain rfl := Host.Outcome.next.inj h
    split_ifs
    · exact .refl s
    · split <;> exact .of_kept (by simp)
  | lineIdle =>
    obtain rfl := Host.Outcome.next.inj h
    split_ifs
    · exact .refl s
    · split <;> exact .of_kept rfl
  | answerOnlySelectPeriod octets early =>
    exact Host.Outcome.next.inj h ▸ answerOnlySelectPeriod_clocksEvolve octets early s

/-- The idle station queues a command or lets time pass. -/
theorem idleStep_clockDriver (s : State) : clockDriver (idleStep s) = clockDriver s := by
  unfold idleStep
  split <;> simp

/-- What a step does to the lines is made of their moves. -/
theorem step_clocksEvolve {s t : State} (hs : StationLegal s) (h : step s = .next t) : ClocksEvolve s t := by
  unfold step at h
  split at h
  · next rest _ => exact exec_clocksEvolve (s := { s with pending := rest }) hs h
  · exact .of_kept (Host.Outcome.next.inj h ▸ idleStep_clockDriver s)

/-- Settles O60: a step's moves each keep a line legal and where the suspending causes put it. -/
theorem stepKeepsTheClockLinesLegal : Obligations.StepKeepsTheClockLinesLegal := by
  intro s t hstation hclocks hsuspension hstep
  have hlegal := (lineViews_legal_iff s).mpr ⟨hclocks, hsuspension⟩
  exact (lineViews_legal_iff t).mp fun k => lineMoves_legal (step_clocksEvolve hstation hstep k) (hlegal k)

end Sys2Proof.Machine

/-! # The decision of R176, and its commands (R172 to R180) -/

namespace Sys2Proof.Machine

/-! ## The decision -/

theorem pulseDue_eq_false {s : State} {k : Fin 4} (h : s.port.station ≠ .run ∨ s.port.image.lines[k] = none ∨
    s.clocks[k].state ≠ .active ∨ s.clocks[k].pulse ≠ none) : pulseDue s k = false := by
  rw [Bool.eq_false_iff]
  intro hdue
  obtain ⟨hrun, hconfig, hactive, hidle⟩ := pulseDue_called hdue
  tauto

theorem decideLine_of_not_due {s : State} {k : Fin 4} (h : pulseDue s k = false) : decideLine k s = s := by
  rw [decideLine, decidedLine_of_not_due h]
  simp

theorem decideLine_of_due {s : State} {k : Fin 4} (h : pulseDue s k = true) :
    decideLine k s = { s with clocks := s.clocks.set k (startPulse s.time.elapsed s.clocks[k]) } := by
  rw [decideLine, decidedLine, if_pos h]

theorem decideLines_of_none_due {s : State} (h : ∀ k, pulseDue s k = false) : (decideLines s).clocks = s.clocks := by
  refine Vector.ext fun i hi => ?_
  exact (decideLines_clocks ⟨i, hi⟩ s).trans (decidedLine_of_not_due (h _))

/-- On each line the decision is that of PULSE_START. -/
theorem decideLines_pulseStart (s : State) (k : Fin 4) :
    ∃ w, exec (.pulseStart k) s = .next w ∧ (decideLines s).clocks[k] = w.clocks[k] :=
  ⟨_, rfl, by rw [decideLines_clocks, decideLine_clocks, if_pos rfl]⟩

/-! ## Target, lag, ahead and spacing (R174 to R176) -/

theorem targetPosition_lt {c : ClockConfig} (h : c.stepSeconds = 30 ∨ c.stepSeconds = 60) (us : Nat) :
    targetPosition c us < dialSteps c := by
  unfold targetPosition dialSteps
  rcases h with h | h <;> rw [h] <;> omega

theorem dialAhead_eq {steps target dial : Nat} (ht : target < steps) :
    dialAhead steps target dial = (dial + steps - target) % steps := by
  have hturn : (dial : Int) - target + steps = ((dial + steps - target : Nat) : Int) := by omega
  rw [dialAhead, ← Int.add_emod_right, hturn, ← Int.natCast_mod, Int.toNat_natCast]

/-- Ahead is 0 at the target alone, and so is the lag. -/
theorem dialAhead_eq_zero_iff {steps target dial : Nat} (ht : target < steps) (hd : dial < steps) :
    dialAhead steps target dial = 0 ↔ dial = target := by
  rw [dialAhead_eq ht]
  rcases Nat.lt_or_ge dial target with h | h
  · rw [Nat.mod_eq_of_lt (by omega)]
    omega
  · rw [Nat.sub_add_comm h, Nat.add_mod_right, Nat.mod_eq_of_lt (by omega)]
    omega

/-- The lag is ahead seen from the target (R175). -/
theorem dialLag_eq_dialAhead (steps target dial : Nat) : dialLag steps target dial = dialAhead steps dial target := rfl

theorem spacingPassed_iff (now : Elapsed) (c : ClockConfig) (last : Option Elapsed) :
    spacingPassed now c last = true ↔
      ∀ start, last = some start → c.spacingSeconds * 1000000 ≤ elapsedSince now start := by
  cases last <;> simp [spacingPassed]

/-- R176 on an ACTIVE line with a dial position, in RUN. -/
theorem pulseDue_iff {s : State} {k : Fin 4} {c : ClockConfig} {dial : Nat} (hs : s.port.station = .run)
    (hc : s.port.image.lines[k] = some c) (hactive : s.clocks[k].state = .active) (hidle : s.clocks[k].pulse = none)
    (hdial : s.clocks[k].dial = some dial) (hsteps : c.stepSeconds = 30 ∨ c.stepSeconds = 60)
    (hlt : dial < dialSteps c) :
    pulseDue s k = true ↔ dial ≠ targetPosition c s.time.date.us ∧
      holdSteps c < (dial + dialSteps c - targetPosition c s.time.date.us) % dialSteps c ∧
      ∀ last, s.clocks[k].lastStart = some last → c.spacingSeconds * 1000000 ≤ elapsedSince s.time.elapsed last := by
  have htarget := targetPosition_lt hsteps s.time.date.us
  have hzero := dialAhead_eq_zero_iff htarget hlt
  have hlag := dialAhead_eq_zero_iff hlt htarget
  rw [← spacingPassed_iff, ← dialAhead_eq htarget]
  simp only [pulseDue, hc, inRun, hs, pulseCalled, hactive, hidle, hdial, dialLag_eq_dialAhead, Bool.and_eq_true,
    Bool.or_eq_true, decide_eq_true_eq, beq_self_eq_true, true_and, Nat.pos_iff_ne_zero, ne_eq, hlag, hzero]
  have hsymm : targetPosition c s.time.date.us = dial ↔ dial = targetPosition c s.time.date.us := eq_comm
  tauto

/-- Settles O50: the decision where nothing can start, then by its three conditions. -/
theorem pulsesStartByLagHoldAndSpacing : Obligations.PulsesStartByLagHoldAndSpacing := by
  intro s k
  refine ⟨fun h => congrArg _ (decideLine_of_not_due (pulseDue_eq_false h)),
    fun c dial hs hc hactive hidle hdial hsteps hlt => ?_, ⟨_, rfl, rfl⟩⟩
  have hdue := pulseDue_iff hs hc hactive hidle hdial hsteps hlt
  refine ⟨targetPosition_lt hsteps _, fun hnot => ?held, fun hlag hahead hspaced => ?starts⟩
  case held =>
    refine congrArg _ (decideLine_of_not_due (Bool.eq_false_iff.mpr fun h => ?_))
    obtain ⟨hlag, hahead, hspaced⟩ := hdue.mp h
    rcases hnot with heq | ⟨-, hheld⟩ | hclose
    · exact hlag heq
    · exact absurd hahead (Nat.not_lt.mpr hheld)
    · exact hclose hspaced
  case starts => exact congrArg _ (decideLine_of_due (hdue.mpr ⟨hlag, hahead, hspaced⟩))

/-! ## SUPPLY_CHANGE (R172, R173) -/

theorem exec_supplyChange_of_unqualified {s : State} (v : Supply) (hs : s.port.station = .notQualified) :
    exec (.supplyChange v) s = .next (putSupply v s) := congrArg _ (if_pos hs)

theorem exec_supplyChange_of_qualified {s : State} (v : Supply) (hs : s.port.station ≠ .notQualified) :
    exec (.supplyChange v) s = .next (takeSupply v (putSupply v s)) := congrArg _ (if_neg hs)

theorem suspendLine_eq (cause : Bool) (l : ClockLine) :
    suspendLine cause l = { l with state := (suspendLine cause l).state } := by
  unfold suspendLine
  split <;> rfl

theorem refreshSuspension_of_cause {s : State} (h : suspendingCause s.agreement.timeState s.supply = true)
    (k : Fin 4) : (refreshSuspension s).clocks[k].state =
      if s.clocks[k].state = .active then .suspended else s.clocks[k].state := by
  rw [refreshSuspension_clocks, suspendLine_state, h]
  simp

theorem refreshSuspension_of_no_cause {s : State} (h : suspendingCause s.agreement.timeState s.supply = false)
    (k : Fin 4) : (refreshSuspension s).clocks[k].state =
      if s.clocks[k].state = .suspended then .active else s.clocks[k].state := by
  rw [refreshSuspension_clocks, suspendLine_state, h]
  simp

/-- While a cause holds no line is ACTIVE, so the decision starts no pulse (R173, R176). -/
theorem decideLines_of_cause {s : State} (h : suspendingCause s.agreement.timeState s.supply = true) :
    (decideLines (refreshSuspension s)).clocks = (refreshSuspension s).clocks := by
  refine decideLines_of_none_due fun k => pulseDue_eq_false (.inr (.inr (.inl ?_)))
  rw [refreshSuspension_of_cause h]
  split_ifs with hs
  · simp
  · exact hs

/-- Settles O49: the suspension read off line by line, then the decision. -/
theorem supplySuspendsAndResumesTheLines : Obligations.SupplySuspendsAndResumesTheLines := by
  intro s v
  refine ⟨exec_supplyChange_of_unqualified v, fun hs => ?_⟩
  have hcause := suspendingCause_iff s.agreement.timeState v
  refine ⟨_, refreshSuspension { putSupply v s with supply := v }, exec_supplyChange_of_qualified v hs, rfl, rfl,
    fun k => ?record, fun k hc => ?suspended, fun k hno => ?resumed, fun k => ?decided, fun hc => ?still⟩
  case record =>
    rw [refreshSuspension_clocks]
    exact suspendLine_eq _ _
  case suspended => exact refreshSuspension_of_cause (hcause.mpr hc) k
  case resumed => exact refreshSuspension_of_no_cause (Bool.eq_false_iff.mpr (hcause.not.mpr hno)) k
  case decided => exact decideLines_pulseStart _ k
  case still => exact decideLines_of_cause (hcause.mpr hc)

/-! ## PULSE_END (R177 to R180) -/

theorem endedPulse_of_idle {s : State} {k : Fin 4} (h : s.clocks[k].pulse = none) : endedPulse s k = none := by
  rw [Option.eq_none_iff_forall_not_mem]
  rintro ⟨c, p⟩ hended
  obtain ⟨-, hp⟩ := endedPulse_flight hended
  exact nomatch h.symm.trans hp

theorem endedPulse_of_flight {s : State} {k : Fin 4} {c : ClockConfig} {p : Pulse}
    (hc : s.port.image.lines[k] = some c) (hp : s.clocks[k].pulse = some p) :
    endedPulse s k = if reached s.time.elapsed (pulseEndPoint c p) = true then some (c, p) else none := by
  simp only [endedPulse, hc, hp]

theorem exec_pulseEnd_of_not_ended {s : State} {k : Fin 4} (h : endedPulse s k = none) :
    exec (.pulseEnd k) s = .next s := by
  simp only [exec, execPulseEnd, h]

theorem exec_pulseEnd_of_ended {s : State} {k : Fin 4} {c : ClockConfig} {p : Pulse}
    (h : endedPulse s k = some (c, p)) : exec (.pulseEnd k) s = .next (decideLine k (endPulse k c p s)) := by
  simp only [exec, execPulseEnd, h]

theorem pulseProven_iff (s : State) (c : ClockConfig) (p : Pulse) :
    pulseProven s c p = true ↔ p.seenOn = true ∨ s.pins.levels[c.proving] = true := Bool.or_eq_true_iff

theorem pulseProven_eq_false {s : State} {c : ClockConfig} {p : Pulse} (hseen : p.seenOn = false)
    (hlevel : s.pins.levels[c.proving] = false) : pulseProven s c p = false := by
  simp only [pulseProven, hseen, hlevel, Bool.or_self]

theorem otherPolarity_eq (p : Polarity) : otherPolarity p = if p = .a then .b else .a := by cases p <;> rfl

theorem endPulse_of_proven {s : State} {k : Fin 4} {c : ClockConfig} {p : Pulse} (h : pulseProven s c p = true) :
    endPulse k c p s =
      { s with clocks := s.clocks.set k (provenPulse (dialSteps c) (releaseDrive s.clocks[k])) } := if_pos h

theorem unprovenPulse_of_few {l : ClockLine} (h : l.unproven < 2) :
    unprovenPulse l = { l with unproven := l.unproven + 1 } := by
  have hcount : saturatingAdd 3 l.unproven 1 = l.unproven + 1 := Nat.min_eq_right (by omega)
  have hthird : l.unproven + 1 ≠ 3 := by omega
  simp only [unprovenPulse, hcount, if_neg hthird]

theorem unprovenPulse_of_third {l : ClockLine} (h : l.unproven = 2) :
    unprovenPulse l = { l with unproven := 3, state := .fault } := by
  simp [unprovenPulse, h, saturatingAdd]

theorem endPulse_of_few {s : State} {k : Fin 4} {c : ClockConfig} {p : Pulse} (h : pulseProven s c p = false)
    (hn : s.clocks[k].unproven < 2) : endPulse k c p s = { s with
      clocks := s.clocks.set k { releaseDrive s.clocks[k] with unproven := s.clocks[k].unproven + 1 } } := by
  have hcount : s.clocks[k].unproven + 1 ≠ 3 := by omega
  have hunproven := unprovenPulse_of_few (l := releaseDrive s.clocks[k]) hn
  unfold endPulse
  dsimp only
  rw [h, hunproven]
  exact (if_neg Bool.false_ne_true).trans (if_neg hcount)

theorem endPulse_of_third {s : State} {k : Fin 4} {c : ClockConfig} {p : Pulse} (h : pulseProven s c p = false)
    (hn : s.clocks[k].unproven = 2) :
    endPulse k c p s = raiseUrgent .clockLineFault { date := s.time.date, epoch := s.time.epoch }
      { s with clocks := s.clocks.set k { releaseDrive s.clocks[k] with unproven := 3, state := .fault } } := by
  have hunproven := unprovenPulse_of_third (l := releaseDrive s.clocks[k]) hn
  unfold endPulse
  dsimp only
  rw [h, hunproven]
  exact (if_neg Bool.false_ne_true).trans (if_pos rfl)

/-- Settles O51: before its point and without a pulse, then the proven end, the unproven ends and the third of them. -/
theorem pulseEndsProvenOrUnproven : Obligations.PulseEndsProvenOrUnproven := by
  intro s k
  refine ⟨fun hidle => exec_pulseEnd_of_not_ended (endedPulse_of_idle hidle), fun c p hc hp => ?_⟩
  have hflight := endedPulse_of_flight hc hp
  refine ⟨fun hbefore => ?before, fun hpoint => ?_⟩
  case before =>
    exact exec_pulseEnd_of_not_ended (hflight.trans (if_neg (Bool.eq_false_iff.mp hbefore)))
  have hexec := exec_pulseEnd_of_ended (hflight.trans (if_pos hpoint))
  refine ⟨fun hproven => ?proven, fun hseen hlevel hfew => ?unproven, fun hseen hlevel htwo => ?third⟩
  case proven =>
    rw [endPulse_of_proven ((pulseProven_iff s c p).mpr hproven), provenPulse, otherPolarity_eq] at hexec
    exact ⟨_, hexec, rfl⟩
  case unproven =>
    rw [endPulse_of_few (pulseProven_eq_false hseen hlevel) hfew] at hexec
    exact ⟨_, hexec, rfl⟩
  case third =>
    rw [endPulse_of_third (pulseProven_eq_false hseen hlevel) htwo, decideLine_of_not_due] at hexec
    · exact hexec
    · refine pulseDue_eq_false (.inr (.inr (.inl ?_)))
      simp

end Sys2Proof.Machine

/-! # SET DIAL (R176, R182) -/

namespace Sys2Proof.Machine

theorem exec_setDial {s : State} {number : Octet} {params : List Octet} (hs : s.port.station = .run)
    (hl : params.length = 2) :
    exec (.setDial { params := number :: params, early := false }) s =
      .next (answered (setDialTo number.toNat (field params 0 2) (clockOutAnswer 4 s))) := by
  have hlength : (number :: params).length = 3 := by simp [hl]
  have hposition : field (number :: params) 1 2 = field params 0 2 := field_cons_pos (by decide)
  rw [← field_cons_zero number params, ← hposition]
  exact congrArg _ ((hostCommand_inRun hs hlength (by decide)).trans (by rw [hlength]))

theorem setDialTo_of_beyond {n : Nat} (position : Nat) (s : State) (h : n = 0 ∨ 4 < n) :
    setDialTo n position s = refuse .range s := by
  have hplace : placeFromOne 4 n = none := by
    rw [Option.eq_none_iff_forall_not_mem]
    intro k hk
    have hn := placeFromOne_eq_some_iff.mp hk
    omega
  simp only [setDialTo, hplace]

theorem setDialTo_of_line {n : Nat} {k : Fin 4} (position : Nat) (s : State) (h : n = k.val + 1) :
    setDialTo n position s = setDialAt position k s := by
  simp only [setDialTo, placeFromOne_eq_some_iff.mpr h]

section
variable {s : State} {k : Fin 4} {c : ClockConfig} {position : Nat}

theorem setDialAt_of_unconfigured (hc : s.port.image.lines[k] = none) :
    setDialAt position k s = refuse .state s := by
  simp only [setDialAt, hc]

theorem setDialAt_of_flight (hc : s.port.image.lines[k] = some c) (hp : s.clocks[k].pulse ≠ none) :
    setDialAt position k s = refuse .state s := by
  simp only [setDialAt, hc, Option.isSome_iff_ne_none.mpr hp, if_true]

theorem setDialAt_of_beyond (hc : s.port.image.lines[k] = some c) (hidle : s.clocks[k].pulse = none)
    (hposition : dialSteps c ≤ position) : setDialAt position k s = refuse .range s := by
  simp only [setDialAt, hc, Option.isSome_eq_false_iff.mpr (Option.isNone_iff_eq_none.mpr hidle), if_pos hposition]
  rfl

theorem setDialAt_of_within (hc : s.port.image.lines[k] = some c) (hidle : s.clocks[k].pulse = none)
    (hposition : position < dialSteps c) : setDialAt position k s = done [] (dialLine k position s) := by
  simp only [setDialAt, hc, Option.isSome_eq_false_iff.mpr (Option.isNone_iff_eq_none.mpr hidle),
    if_neg (Nat.not_le.mpr hposition)]
  rfl

end

theorem dialState_of_waiting {st : ClockState} (cause : Bool) (h : st = .unset ∨ st = .fault) :
    dialState cause st = if cause = true then .suspended else .active := by
  rcases h with rfl | rfl <;> rfl

theorem dialState_of_running {st : ClockState} (cause : Bool) (h : st = .active ∨ st = .suspended) :
    dialState cause st = st := by
  rcases h with rfl | rfl <;> rfl

theorem dialPlaced_record (k : Fin 4) (position : Nat) (s : State) :
    (dialPlaced k position s).clocks[k] =
      placeDial (suspendingCause s.agreement.timeState s.supply) position s.clocks[k] := by
  simp [dialPlaced]

/-- Settles O52: the refusals in the order of R182, then the record placed and decided. -/
theorem setDialPlacesTheHands : Obligations.SetDialPlacesTheHands := by
  intro s number params hs hl
  have hexec := exec_setDial (number := number) hs hl
  refine ⟨fun hbeyond => answersWith_refuse hexec (setDialTo_of_beyond _ _ hbeyond), fun k hk => ?_⟩
  rw [setDialTo_of_line _ _ hk] at hexec
  refine ⟨fun hnone => answersWith_refuse hexec (setDialAt_of_unconfigured hnone), fun c hc =>
    ⟨fun hp => answersWith_refuse hexec (setDialAt_of_flight hc hp),
      fun hidle hbeyond => answersWith_refuse hexec (setDialAt_of_beyond hc hidle hbeyond),
      fun hidle hwithin => ?_⟩⟩
  rw [setDialAt_of_within (s := clockOutAnswer 4 s) hc hidle hwithin, dialLine_eq] at hexec
  have hcause := suspendingCause_iff s.agreement.timeState s.supply
  have hrecord := dialPlaced_record k (field params 0 2) s
  refine ⟨_, _, dialPlaced k (field params 0 2) s, hexec, rfl, ?placed, fun hwaiting => ⟨fun hc => ?suspended,
    fun hno => ?active⟩, fun hrunning => ?kept, rfl, rfl⟩
  case placed =>
    rw [hrecord]
    rfl
  case suspended =>
    rw [hrecord]
    exact (dialState_of_waiting _ hwaiting).trans (if_pos (hcause.mpr hc))
  case active =>
    rw [hrecord]
    exact (dialState_of_waiting _ hwaiting).trans (if_neg (hcause.not.mpr hno))
  case kept =>
    rw [hrecord]
    exact dialState_of_running _ hrunning

end Sys2Proof.Machine

/-! # The select period of the service port (R186 to R188) -/

namespace Sys2Proof.Machine

/-- Settles O1: the first case of `step`. -/
theorem stepTakesTheFrontCommand : Obligations.StepTakesTheFrontCommand := by
  intro c rest s h
  simp only [step, h]

/-! ## What is clocked out, and the answer-only period (R187) -/

theorem clockedOut_length (n free : Nat) (answer : Option (List Octet)) : (clockedOut n free answer).length = n := by
  cases answer with
  | none => simp [clockedOut]
  | some a =>
    simp only [clockedOut, List.length_append, List.length_take, List.length_map, List.length_range]
    omega

/-- The octets of the answer come first; what follows them is free (assumption log 2). -/
theorem clockedOut_take (n free : Nat) (a : List Octet) : (clockedOut n free (some a)).take a.length = a.take n := by
  simp only [clockedOut]
  rcases Nat.le_total n a.length with hle | hle
  · rw [Nat.sub_eq_zero_of_le hle, List.range_zero, List.map_nil, List.append_nil, List.take_take, min_eq_right hle]
  · rw [List.take_of_length_le hle, List.take_left]

theorem exec_answerOnlySelectPeriod (n : Nat) {s : State} (hs : s.port.station ≠ .notQualified) :
    exec (.answerOnlySelectPeriod n false) s = .next (clockOutAnswer n s) := by
  simp [exec, execAnswerOnlySelectPeriod, periodDiscarded_eq_false rfl hs]

theorem exec_answerOnlySelectPeriod_discarded (n : Nat) {s : State} {early : Bool}
    (h : s.port.station = .notQualified ∨ early = true) :
    exec (.answerOnlySelectPeriod n early) s = .next (discardPeriod n s) := by
  have hd : periodDiscarded early s = true := by
    rcases h with h | h <;> simp [periodDiscarded, h]
  simp [exec, execAnswerOnlySelectPeriod, hd]

/-- Settles O6: the octets of the held answer in front, and nothing changed but the exchange. -/
theorem answerOnlyPeriodClocksOutTheAnswerOnce : Obligations.AnswerOnlyPeriodClocksOutTheAnswerOnce := by
  intro n s hs
  refine ⟨_, exec_answerOnlySelectPeriod n hs, rfl, clockedOut_length n _ _, fun a ha => ?held, fun hno => ?idle, rfl⟩
  case held =>
    rw [show (clockOutAnswer n s).port.output = clockedOut n s.freeCount s.port.answer from rfl, ha]
    exact clockedOut_take n _ a
  case idle =>
    rw [show (clockOutAnswer n s).port.output = clockedOut n s.freeCount s.port.answer from rfl, hno]
    rfl

/-! ## The rows of R188 as select periods -/

theorem takenIn_config (make : SelectPeriod → Instr) (count : Nat) (s : State) :
    PortRow.takenIn ⟨make, count, true, false⟩ s.port.station = inConfig s := by
  cases hs : s.port.station <;> simp [PortRow.takenIn, inConfig, hs]

theorem takenIn_run (make : SelectPeriod → Instr) (count : Nat) (s : State) :
    PortRow.takenIn ⟨make, count, false, true⟩ s.port.station = inRun s := by
  cases hs : s.port.station <;> simp [PortRow.takenIn, inRun, hs]

theorem takenIn_configOrRun (make : SelectPeriod → Instr) (count : Nat) (s : State) :
    PortRow.takenIn ⟨make, count, true, true⟩ s.port.station = inConfigOrRun s := by
  cases hs : s.port.station <;> simp [PortRow.takenIn, inConfigOrRun, inConfig, inRun, hs]

/-- Every row is a host command with the count of parameter octets and the station states of its row. -/
theorem exec_portRow {row : PortRow} (h : row ∈ portRows) (p : SelectPeriod) (s : State) :
    ∃ command, exec (row.make p) s = .next (hostCommand p row.count (row.takenIn s.port.station) command s) := by
  simp only [portRows, List.mem_cons, List.not_mem_nil, or_false] at h
  rcases h with rfl | rfl | rfl | rfl | rfl | rfl | rfl | rfl | rfl | rfl | rfl | rfl | rfl
  case inl => exact ⟨startStation, by rw [takenIn_config]; rfl⟩
  case inr.inl => exact ⟨fun u => done [] (restartBlocks u), by rw [takenIn_configOrRun]; rfl⟩
  case inr.inr.inl => exact ⟨fun u => done (statusOctets u) u, by rw [takenIn_configOrRun]; rfl⟩
  all_goals exact ⟨_, by rw [takenIn_run]; rfl⟩

theorem portRow_count_le {row : PortRow} (h : row ∈ portRows) : row.count ≤ 71 := by
  revert row
  decide

/-! ## Octets that name no command -/

theorem namedCommand_eq_none {code : Octet} {rest : List Octet}
    (h : 72 < (code :: rest).length ∨ code.toNat = 0 ∨ 14 < code.toNat) : namedCommand (code :: rest) = none := by
  unfold namedCommand
  split_ifs with hlong
  · rfl
  · exact commandOfCode_eq_none (h.resolve_left hlong)

theorem exec_unknownCommand_of_unnamed {octets : List Octet} (early : Bool) (s : State)
    (hnamed : namedCommand octets = none) (hsome : octets ≠ []) :
    exec (.unknownCommand octets early) s =
      .next (selectCommand early octets.length false false (refuse .range) s) := by
  simp [exec, execUnknownCommand, hnamed, hsome, refusePeriod]

theorem namesNoCommand_iff (octets : List Octet) :
    namesNoCommand octets = true ↔ octets ≠ [] ∧ namedCommand octets = none := by
  simp [namesNoCommand]

/-- Settles O7: each kind of period is the one that `selectCommand`, or the answer-only period, discards whole. -/
theorem periodsBegunInNotQualifiedAreDiscarded : Obligations.PeriodsBegunInNotQualifiedAreDiscarded := by
  intro s early h
  refine ⟨fun params row hrow => ?row, fun params => ?configure, fun octets hoctets => ?unknown, fun n => ?answerOnly⟩
  case row =>
    obtain ⟨command, hexec⟩ := exec_portRow hrow { params := params, early := early } s
    exact hexec.trans (congrArg _ (selectCommand_discarded h))
  case configure => exact congrArg Host.Outcome.next (selectCommand_discarded h)
  case unknown =>
    obtain ⟨hsome, hnamed⟩ := (namesNoCommand_iff octets).mp hoctets
    exact (exec_unknownCommand_of_unnamed early s hnamed hsome).trans (congrArg _ (selectCommand_discarded h))
  case answerOnly => exact exec_answerOnlySelectPeriod_discarded n h

/-! ## The order of the refusals (R187, R188) -/

/-- A select period with a command is refused by its length, then by its form, then by the station state. -/
theorem selectCommand_refusals {c : Instr} {s : State} {n : Nat} {wellFormed taken : Bool}
    {command : State → CommandEffect} (hs : s.port.station ≠ .notQualified)
    (hexec : exec c s = .next (selectCommand false n wellFormed taken command s)) :
    (72 < n → AnswersWith c s [1, 3]) ∧ (n ≤ 72 → wellFormed = false → AnswersWith c s [1, 2]) ∧
      (n ≤ 72 → wellFormed = true → taken = false → AnswersWith c s [1, 1]) := by
  refine ⟨fun hlong => ?full, fun hn hform => ?range, fun hn hform htaken => ?state⟩
  case full => exact answersWith_refuse (hexec.trans (congrArg _ (selectCommand_full hs hlong))) rfl
  case range => exact answersWith_refuse (hexec.trans (congrArg _ (selectCommand_range hs hn hform))) rfl
  case state => exact answersWith_refuse (hexec.trans (congrArg _ (selectCommand_state hs hn hform htaken))) rfl

/-- Settles O8: every kind of command is a `selectCommand`, which refuses in that order. -/
theorem commandsAreRefusedByFormThenByStationState : Obligations.CommandsAreRefusedByFormThenByStationState := by
  intro s hs
  refine ⟨fun code rest hcode => ?unknown, fun row hrow params => ?row, fun params => ?configure⟩
  case unknown =>
    obtain ⟨hfull, hrange, -⟩ := selectCommand_refusals hs
      (exec_unknownCommand_of_unnamed false s (namedCommand_eq_none hcode) (List.cons_ne_nil code rest))
    split_ifs with hlong
    · exact hfull hlong
    · exact hrange (Nat.not_lt.mp hlong) rfl
  case row =>
    obtain ⟨command, hexec⟩ := exec_portRow hrow { params := params, early := false } s
    obtain ⟨hfull, hrange, hstate⟩ := selectCommand_refusals hs hexec
    refine ⟨hfull, fun hn hcount => hrange hn (decide_eq_false hcount), fun hcount htaken => ?_⟩
    have hle := portRow_count_le hrow
    exact hstate (by simp only; omega) (decide_eq_true hcount) htaken
  case configure =>
    have hexec : exec (.configure { params := params, early := false }) s =
        .next (selectCommand false (params.length + 1) (configureForm params) (inConfig s) (configureItem params) s) :=
      rfl
    obtain ⟨hfull, hrange, hstate⟩ := selectCommand_refusals hs hexec
    exact ⟨hfull, hrange, fun hn hform hrun => hstate hn hform (by simp [inConfig, hrun])⟩

end Sys2Proof.Machine

/-! # The queue of commands (assumption log 23, 25)

`selectCommand_pending` reduces a select period to the meaning of its command; the frame lemmas of the shared operations
give the rest. -/

namespace Sys2Proof.Machine

/-! ## The meanings of the host's commands -/

@[simp] theorem refuse_state (r : RefusalCode) (s : State) : (refuse r s).1 = s := rfl

@[simp] theorem done_state (returned : List Octet) (s : State) : (done returned s).1 = s := rfl

theorem configureItem_pending (p : List Octet) (s : State) : (configureItem p s).1.pending = s.pending := by
  unfold configureItem
  split
  · split_ifs <;> simp
  · rfl

theorem startStation_pending (s : State) : (startStation s).1.pending = s.pending := by
  unfold startStation
  split <;> simp

theorem takeOldest_pending (n : Nat) (s : State) : (takeOldest n s).1.pending = s.pending := by
  unfold takeOldest
  split_ifs <;> rfl

theorem peekAt_pending (k : Nat) (s : State) : (peekAt k s).1.pending = s.pending := by
  unfold peekAt
  split <;> rfl

theorem takeHead_pending (s : State) : (takeHead s).1.pending = s.pending := by
  unfold takeHead
  split <;> simp

theorem withSlot_pending {command : Fin 256 → State → CommandEffect}
    (hc : ∀ slot s, (command slot s).1.pending = s.pending) (n : Nat) (s : State) :
    (withSlot n command s).1.pending = s.pending := by
  unfold withSlot
  split
  · exact hc _ s
  · rfl

theorem loadSlot_pending (slot : Fin 256) (p : List Octet) (s : State) :
    (loadSlot slot p s).1.pending = s.pending := by
  unfold loadSlot
  split_ifs
  · rfl
  · split
    · split_ifs <;> simp
    · rfl

theorem cancelAt_pending (slot : Fin 256) (s : State) : (cancelAt slot s).1.pending = s.pending := by
  unfold cancelAt
  split_ifs <;> rfl

theorem readOrigin_pending (n : Nat) (s : State) : (readOrigin n s).1.pending = s.pending := by
  unfold readOrigin
  split <;> rfl

theorem clearConditions_pending (set : Nat) (s : State) : (clearConditions set s).1.pending = s.pending := by
  unfold clearConditions
  split_ifs <;> rfl

theorem setTimeTo_pending (d : Date) (s : State) : (setTimeTo d s).1.pending = s.pending := by
  unfold setTimeTo
  split_ifs <;> simp

theorem setDialTo_pending (line position : Nat) (s : State) : (setDialTo line position s).1.pending = s.pending := by
  unfold setDialTo
  split
  · unfold setDialAt
    split
    · rfl
    · split_ifs <;> simp
  · rfl

/-! ## Commands that complete -/

/-- The command answers a next state, with the queue of commands as it was. -/
def Completes (c : Instr) (s : State) : Prop := ∃ t, exec c s = .next t ∧ t.pending = s.pending

theorem Completes.of_next {c : Instr} {s t : State} (hexec : exec c s = .next t) (h : t.pending = s.pending) :
    Completes c s := ⟨t, hexec, h⟩

/-- A command whose point has not come changes nothing (assumption log 1). -/
theorem Completes.of_due {c : Instr} {due : Prop} [Decidable due] {s t : State}
    (hexec : exec c s = .next (if due then t else s)) (h : t.pending = s.pending) : Completes c s :=
  .of_next hexec (by split_ifs <;> simp [h])

theorem Completes.of_selectCommand {c : Instr} {early : Bool} {n : Nat} {wellFormed taken : Bool}
    {command : State → CommandEffect} {s : State}
    (hexec : exec c s = .next (selectCommand early n wellFormed taken command s))
    (hc : ∀ u, (command u).1.pending = u.pending) : Completes c s :=
  .of_next hexec (selectCommand_pending hc s)

/-- Every row of R188 completes. -/
theorem row_completes (c : PortCommand) (p : SelectPeriod) (s : State) : Completes (c.row p) s := by
  cases c with
  | configure => exact .of_selectCommand rfl (configureItem_pending p.params)
  | start => exact .of_selectCommand rfl startStation_pending
  | restart => exact .of_selectCommand rfl fun u => (restartBlocks_frame u).1
  | readStatus => exact .of_selectCommand rfl fun _ => rfl
  | takeEvents => exact .of_selectCommand rfl (takeOldest_pending _)
  | peekEvent => exact .of_selectCommand rfl (peekAt_pending _)
  | takeDeviation => exact .of_selectCommand rfl takeHead_pending
  | loadEntry => exact .of_selectCommand rfl (withSlot_pending (fun slot => loadSlot_pending slot _) _)
  | cancelEntry => exact .of_selectCommand rfl (withSlot_pending cancelAt_pending _)
  | readEntry => exact .of_selectCommand rfl (withSlot_pending (fun _ _ => rfl) _)
  | readHeard => exact .of_selectCommand rfl (readOrigin_pending _)
  | clearUrgent => exact .of_selectCommand rfl (clearConditions_pending _)
  | setTime => exact .of_selectCommand rfl (setTimeTo_pending _)
  | setDial => exact .of_selectCommand rfl (setDialTo_pending _ _)

theorem answerOnlySelectPeriod_completes (n : Nat) (early : Bool) (s : State) :
    Completes (.answerOnlySelectPeriod n early) s := by
  refine .of_next rfl ?_
  split_ifs <;> simp

/-- An UNKNOWN_COMMAND is a row of R188, an answer-only period, or refused (assumption log 1). -/
theorem unknownCommand_completes (octets : List Octet) (early : Bool) (s : State) :
    Completes (.unknownCommand octets early) s := by
  cases hnamed : namedCommand octets with
  | some c =>
    have hperiod : periodCommand octets early = c.row { params := octets.tail, early := early } := by
      simp [periodCommand, hnamed]
    obtain ⟨t, hexec, h⟩ := row_completes c { params := octets.tail, early := early } s
    exact .of_next ((exec_unknownCommand octets early s).trans (hperiod ▸ hexec)) h
  | none =>
    by_cases hempty : octets = []
    · subst hempty
      exact answerOnlySelectPeriod_completes 0 early s
    · exact .of_selectCommand (exec_unknownCommand_of_unnamed early s hnamed hempty) fun _ => rfl

theorem exec_completes (c : Instr) (s : State) : Completes c s := by
  cases c with
  | unknownCommand octets early => exact unknownCommand_completes octets early s
  | answerOnlySelectPeriod n early => exact answerOnlySelectPeriod_completes n early s
  | configure p => exact row_completes .configure p s
  | start p => exact row_completes .start p s
  | restart p => exact row_completes .restart p s
  | readStatus p => exact row_completes .readStatus p s
  | takeEvents p => exact row_completes .takeEvents p s
  | peekEvent p => exact row_completes .peekEvent p s
  | takeDeviation p => exact row_completes .takeDeviation p s
  | loadEntry p => exact row_completes .loadEntry p s
  | cancelEntry p => exact row_completes .cancelEntry p s
  | readEntry p => exact row_completes .readEntry p s
  | readHeard p => exact row_completes .readHeard p s
  | clearUrgent p => exact row_completes .clearUrgent p s
  | setTime p => exact row_completes .setTime p s
  | setDial p => exact row_completes .setDial p s
  | powerOn => exact .of_next rfl rfl
  | qualificationEnd => exact .of_due rfl (by simp)
  | secondMark => exact .of_next rfl (by simp)
  | correctionSecondEnd => exact .of_due rfl rfl
  | holdoverEntry => exact .of_due rfl (by simp)
  | presenceDue => exact .of_due rfl (by simp)
  | beginReadyFrame =>
    refine .of_next rfl ?_
    split
    · split_ifs <;> simp
    · rfl
  | frameOutcome how =>
    refine .of_next rfl ?_
    split <;> simp
  | receiveTimeFrame f => exact .of_next rfl (by simp)
  | receiveNotice f => exact .of_next rfl (by simp)
  | receivePresence f => exact .of_next rfl (by simp)
  | receiveBadFrame why => exact .of_due rfl (by simp)
  | silenceExpiry peer => exact .of_due rfl (by simp)
  | silenceTimerExpiry => exact .of_due rfl (by simp)
  | holdoverAging => exact .of_due rfl rfl
  | referencePulse =>
    refine .of_next rfl ?_
    split
    · split_ifs <;> simp
    · rfl
  | referenceLoss => exact .of_due rfl (by simp)
  | edge terminal level => exact .of_next rfl (by simp)
  | settleExpiry terminal =>
    refine .of_next rfl ?_
    split
    · split_ifs <;> simp
    · rfl
  | limitExpiry pair => exact .of_due rfl (by simp)
  | openFire => exact .of_due rfl (by simp)
  | missFire => exact .of_due rfl (by simp)
  | supplyChange supply =>
    refine .of_next rfl ?_
    split_ifs <;> simp
  | stepBoundary line => exact .of_next rfl (by simp)
  | pulseStart line => exact .of_next rfl (by simp)
  | pulseEnd line =>
    refine .of_next rfl ?_
    split <;> simp
  | dominantLeadIn mark =>
    refine .of_next rfl ?_
    split_ifs
    · rfl
    · split <;> simp
  | lineIdle =>
    refine .of_next rfl ?_
    split_ifs
    · rfl
    · split <;> rfl

/-- Settles O3, command by command. -/
theorem everyCommandCompletesAndKeepsTheQueue : Obligations.EveryCommandCompletesAndKeepsTheQueue :=
  exec_completes

end Sys2Proof.Machine

/-! # READ STATUS (R194, R199)

The answer is cut into the head (octets 0 to 17), the hit counts (18 to 49), the occupancies (50 to 59), the urgent
conditions (60 to 129), the deviation queue with the supply (130 to 133) and the clock lines (134 to 161). -/

namespace Sys2Proof.Machine

/-! ## Parts of equal length, one after another -/

theorem length_flatMap_of_length {α : Type} {f : α → List Octet} {m : Nat} (hf : ∀ x, (f x).length = m) (l : List α) :
    (l.flatMap f).length = m * l.length := by
  simp [List.length_flatMap, hf, Nat.mul_comm]

/-- A field within the `k`-th of several parts of `m` octets. -/
theorem field_flatMap {α : Type} {f : α → List Octet} {m : Nat} (hf : ∀ x, (f x).length = m) {l : List α} {k i n : Nat}
    (hk : k < l.length) (h : i + n ≤ m) : field (l.flatMap f) (m * k + i) n = field (f l[k]) i n := by
  induction l generalizing k with
  | nil => simp at hk
  | cons x rest ih =>
    rw [List.flatMap_cons]
    cases k with
    | zero => rw [field_append_left (by rw [hf]; omega), Nat.mul_zero, Nat.zero_add, List.getElem_cons_zero]
    | succ k =>
      have hstart : m * (k + 1) + i - m = m * k + i := by rw [Nat.mul_succ]; omega
      rw [field_append_right (by rw [hf, Nat.mul_succ]; omega), hf, hstart, ih (Nat.lt_of_succ_lt_succ hk),
        List.getElem_cons_succ]

/-- A field within the second of three parts. -/
theorem field_middle {a b c : List Octet} {i n : Nat} (hi : a.length ≤ i) (h : i + n ≤ a.length + b.length) :
    field (a ++ (b ++ c)) i n = field b (i - a.length) n := by
  rw [field_append_right hi, field_append_left (by omega)]

/-! ## The parts of the status octets -/

/-- Octets 0 to 17. -/
def statusHead (s : State) : List Octet :=
  [octet (stationCode s.port.station), octet s.port.image.station, octet (timeStateCode s.agreement.timeState),
    octet s.agreement.grade, s.time.epoch] ++
  dateOctets s.time.date ++ [octet s.time.fraction] ++ beOctets 2 (BitVec.ofInt 16 s.time.trim).toNat ++
  [octet (standingCode s.line.standing), octet s.line.score, octet s.line.txQueue.length]

/-- Octets 18 to 49. -/
def statusHits (s : State) : List Octet := s.line.hits.toList.flatMap (beOctets 2)

/-- Octets 50 to 59. -/
def statusOccupancies (s : State) : List Octet :=
  beOctets 2 s.events.records.length ++ beOctets 2 (slotsInUse s.checker) ++
  beOctets 2 s.checker.deadlines.length ++ beOctets 2 s.checker.refused ++ beOctets 2 s.checker.unmatched

/-- Octets 60 to 129. -/
def statusUrgent (s : State) : List Octet := s.report.urgent.toList.flatMap urgentOctets

/-- Octets 130 to 133. -/
def statusDeviations (s : State) : List Octet :=
  [octet s.report.deviations.length] ++ beOctets 2 s.report.displaced ++ [octet (supplyCode s.supply)]

/-- Octets 134 to 161. -/
def statusClocks (s : State) : List Octet := clocksOctets s.port.image.lines s.clocks

theorem statusOctets_eq (s : State) : statusOctets s =
    statusHead s ++ (statusHits s ++ (statusOccupancies s ++ (statusUrgent s ++
      (statusDeviations s ++ statusClocks s)))) := by
  simp [statusOctets, statusHead, statusHits, statusOccupancies, statusUrgent, statusDeviations, statusClocks]

@[simp] theorem urgentOctets_length (u : UrgentRecord) : (urgentOctets u).length = 10 := by simp [urgentOctets]

@[simp] theorem clockOctets_length (configured : Bool) (l : ClockLine) : (clockOctets configured l).length = 7 := by
  simp [clockOctets]

section
variable (s : State)

@[simp] theorem statusHead_length : (statusHead s).length = 18 := by simp [statusHead]

@[simp] theorem statusHits_length : (statusHits s).length = 32 := by
  rw [statusHits, length_flatMap_of_length (beOctets_length 2), Vector.length_toList]

@[simp] theorem statusOccupancies_length : (statusOccupancies s).length = 10 := by simp [statusOccupancies]

@[simp] theorem statusUrgent_length : (statusUrgent s).length = 70 := by
  rw [statusUrgent, length_flatMap_of_length urgentOctets_length, Vector.length_toList]

@[simp] theorem statusDeviations_length : (statusDeviations s).length = 4 := by simp [statusDeviations]

@[simp] theorem statusClocks_length : (statusClocks s).length = 28 := by
  rw [statusClocks, clocksOctets, length_flatMap_of_length (fun _ => clockOctets_length _ _), List.length_finRange]

theorem statusOctets_length : (statusOctets s).length = 162 := by simp [statusOctets_eq]

end

/-! ## Which part holds a field of the answer -/

section
variable {s : State} {i n : Nat}

theorem field_statusHead (h : i + n ≤ 18) : field (statusOctets s) i n = field (statusHead s) i n := by
  rw [statusOctets_eq, field_append_left (by simpa)]

theorem field_statusHits (hi : 18 ≤ i) (h : i + n ≤ 50) :
    field (statusOctets s) i n = field (statusHits s) (i - 18) n := by
  have hbefore := statusHead_length s
  rw [statusOctets_eq, field_middle (by omega) (by rw [hbefore, statusHits_length]; exact h), hbefore]

theorem field_statusOccupancies (hi : 50 ≤ i) (h : i + n ≤ 60) :
    field (statusOctets s) i n = field (statusOccupancies s) (i - 50) n := by
  have hbefore : (statusHead s ++ statusHits s).length = 50 := by simp
  rw [statusOctets_eq, ← List.append_assoc, field_middle (by omega)
    (by rw [hbefore, statusOccupancies_length]; exact h), hbefore]

theorem field_statusUrgent (hi : 60 ≤ i) (h : i + n ≤ 130) :
    field (statusOctets s) i n = field (statusUrgent s) (i - 60) n := by
  have hbefore : (statusHead s ++ statusHits s ++ statusOccupancies s).length = 60 := by simp
  rw [statusOctets_eq, ← List.append_assoc, ← List.append_assoc, field_middle (by omega)
    (by rw [hbefore, statusUrgent_length]; exact h), hbefore]

theorem field_statusDeviations (hi : 130 ≤ i) (h : i + n ≤ 134) :
    field (statusOctets s) i n = field (statusDeviations s) (i - 130) n := by
  have hbefore : (statusHead s ++ statusHits s ++ statusOccupancies s ++ statusUrgent s).length = 130 := by simp
  rw [statusOctets_eq, ← List.append_assoc, ← List.append_assoc, ← List.append_assoc, field_middle (by omega)
    (by rw [hbefore, statusDeviations_length]; exact h), hbefore]

theorem field_statusClocks (hi : 134 ≤ i) :
    field (statusOctets s) i n = field (statusClocks s) (i - 134) n := by
  have hbefore : (statusHead s ++ statusHits s ++ statusOccupancies s ++ statusUrgent s ++
    statusDeviations s).length = 134 := by simp
  rw [statusOctets_eq, ← List.append_assoc, ← List.append_assoc, ← List.append_assoc, ← List.append_assoc,
    field_append_right (by omega), hbefore]

end

/-! ## The codes of R195 and R199 as octets -/

@[simp] theorem standingCode_mod (st : Standing) : standingCode st % 256 = standingCode st := by cases st <;> rfl
@[simp] theorem supplyCode_mod (v : Supply) : supplyCode v % 256 = supplyCode v := by cases v <;> rfl
@[simp] theorem clockStateCode_mod (st : ClockState) : clockStateCode st % 256 = clockStateCode st := by
  cases st <;> rfl
@[simp] theorem polarityCode_mod (p : Polarity) : polarityCode p % 256 = polarityCode p := by cases p <;> rfl

theorem stationCode_of_qualified {st : StationState} (h : st ≠ .notQualified) :
    stationCode st % 256 = if st = .config then 1 else 2 := by
  cases st with
  | notQualified => exact absurd rfl h
  | config => rfl
  | run => rfl

theorem statusCodes : StatusCodes := ⟨rfl, rfl, rfl, rfl, rfl⟩

/-! ## The parts, field by field -/

section
variable (s : State)

/-- Octets 0 to 17 of the answer. -/
theorem statusHead_layout (hs : s.port.station ≠ .notQualified) :
    field (statusOctets s) 0 1 = (if s.port.station = .config then 1 else 2) ∧
    field (statusOctets s) 1 1 = s.port.image.station % 256 ∧
    field (statusOctets s) 2 1 = timeStateCode s.agreement.timeState ∧
    field (statusOctets s) 3 1 = s.agreement.grade % 256 ∧
    field (statusOctets s) 4 1 = s.time.epoch.toNat ∧
    field (statusOctets s) 5 2 = s.time.date.day % 65536 ∧
    field (statusOctets s) 7 5 = s.time.date.us % 1099511627776 ∧
    field (statusOctets s) 12 1 = s.time.fraction % 256 ∧
    field (statusOctets s) 13 2 = (BitVec.ofInt 16 s.time.trim).toNat ∧
    field (statusOctets s) 15 1 = standingCode s.line.standing ∧
    field (statusOctets s) 16 1 = s.line.score % 256 ∧
    field (statusOctets s) 17 1 = s.line.txQueue.length % 256 := by
  have htrim : s.time.trim % 65536 < 65536 := Int.emod_lt_of_pos _ (by decide)
  have hstation := stationCode_of_qualified hs
  simp (disch := decide) only [field_statusHead]
  unfold statusHead
  refine ⟨?station, ?number, ?timeState, ?grade, ?epoch, ?day, ?us, ?fraction, ?trim, ?standing, ?score, ?items⟩
  case station => simp [hstation]
  case day => simp [dateOctets, field_append_left, field_cons_pos]
  case us => simp [dateOctets, field_append_right, field_append_left, field_cons_pos]
  case trim => simp [field_append_right, field_append_left, field_cons_pos, htrim]
  all_goals simp [field_append_right, field_cons_pos]

theorem statusHits_layout (k : Fin 16) : field (statusOctets s) (18 + 2 * k.val) 2 = s.line.hits[k] % 65536 := by
  have hk : k.val < s.line.hits.toList.length := by simp
  have hpart := field_flatMap (beOctets_length 2) (i := 0) (n := 2) hk (by decide)
  rw [field_statusHits (by omega) (by omega), Nat.add_sub_cancel_left]
  exact hpart.trans (by simp)

/-- Octets 50 to 59 of the answer. -/
theorem statusOccupancies_layout :
    field (statusOctets s) 50 2 = s.events.records.length % 65536 ∧
    field (statusOctets s) 52 2 = slotsInUse s.checker % 65536 ∧
    field (statusOctets s) 54 2 = s.checker.deadlines.length % 65536 ∧
    field (statusOctets s) 56 2 = s.checker.refused % 65536 ∧
    field (statusOctets s) 58 2 = s.checker.unmatched % 65536 := by
  simp (disch := decide) only [field_statusOccupancies]
  unfold statusOccupancies
  refine ⟨?_, ?_, ?_, ?_, ?_⟩ <;> simp [field_append_right, field_append_left]

/-- An urgent condition's ten octets. -/
theorem urgentOctets_layout (u : UrgentRecord) :
    field (urgentOctets u) 0 1 = (if u.flag = true then 1 else 0) ∧ field (urgentOctets u) 1 1 = u.count % 256 ∧
    (∀ d, u.first = some d → field (urgentOctets u) 2 1 = d.epoch.toNat ∧
      field (urgentOctets u) 3 2 = d.date.day % 65536 ∧ field (urgentOctets u) 5 5 = d.date.us % 1099511627776) ∧
    (u.first = none → field (urgentOctets u) 2 8 = 0) := by
  unfold urgentOctets
  refine ⟨?flag, ?count, fun d hd => ⟨?epoch, ?day, ?us⟩, fun hno => ?never⟩
  case flag => simp
  case count => simp [field_cons_pos]
  case epoch => simp [hd, field_cons_pos, epochDateOctets]
  case day => simp [hd, field_cons_pos, epochDateOctets, dateOctets, field_append_left]
  case us => simp [hd, field_cons_pos, epochDateOctets, dateOctets, field_append_right]
  case never => simp [hno, field_cons_pos]

/-- A field of an urgent condition, in the answer. -/
theorem field_statusUrgent_of (k : Fin 7) {i n : Nat} (h : i + n ≤ 10) :
    field (statusOctets s) (60 + i + 10 * k.val) n = field (urgentOctets s.report.urgent[k]) i n := by
  have hk : k.val < s.report.urgent.toList.length := by simp
  have hpart := field_flatMap urgentOctets_length hk h
  rw [field_statusUrgent (by omega) (by omega), show 60 + i + 10 * k.val - 60 = 10 * k.val + i by omega]
  exact hpart.trans (by simp)

/-- Octets 130 to 133 of the answer. -/
theorem statusDeviations_layout :
    field (statusOctets s) 130 1 = s.report.deviations.length % 256 ∧
    field (statusOctets s) 131 2 = s.report.displaced % 65536 ∧
    field (statusOctets s) 133 1 = supplyCode s.supply := by
  simp (disch := decide) only [field_statusDeviations]
  unfold statusDeviations
  refine ⟨?_, ?_, ?_⟩ <;> simp [field_append_right, field_append_left, field_cons_pos]

/-- A clock line's seven octets. -/
theorem clockOctets_layout (configured : Bool) (l : ClockLine) :
    field (clockOctets configured l) 0 1 = (if configured = true then 1 else 0) ∧
    field (clockOctets configured l) 1 1 = clockStateCode l.state ∧
    field (clockOctets configured l) 2 1 =
      (if l.dial.isSome = true then 1 else 0) + (if l.pulse.isSome = true then 2 else 0) ∧
    field (clockOctets configured l) 3 2 = l.dial.getD 0 % 65536 ∧
    field (clockOctets configured l) 5 1 = polarityCode l.nextPolarity ∧
    field (clockOctets configured l) 6 1 = l.unproven % 256 := by
  unfold clockOctets
  refine ⟨?configured, ?state, ?flags, ?dial, ?polarity, ?unproven⟩
  case configured => simp
  case state => simp [field_cons_pos]
  case flags => simp [field_cons_pos, flagOctet_two]
  case dial => cases l.dial <;> simp [field_cons_pos, field_append_left]
  case polarity => simp [field_cons_pos, field_append_right]
  case unproven => simp [field_cons_pos, field_append_right]

/-- A field of a clock line, in the answer. -/
theorem field_statusClocks_of (k : Fin 4) {i n : Nat} (h : i + n ≤ 7) :
    field (statusOctets s) (134 + i + 7 * k.val) n =
      field (clockOctets s.port.image.lines[k].isSome s.clocks[k]) i n := by
  have hk : k.val < (List.finRange 4).length := by simp
  have hpart := field_flatMap (fun j : Fin 4 => clockOctets_length s.port.image.lines[j].isSome s.clocks[j]) hk h
  rw [field_statusClocks (by omega), show 134 + i + 7 * k.val - 134 = 7 * k.val + i by omega]
  exact hpart.trans (by simp)

end

/-! ## The command -/

theorem inConfigOrRun_of_qualified {s : State} (hs : s.port.station ≠ .notQualified) : inConfigOrRun s = true := by
  cases h : s.port.station <;> simp_all [inConfigOrRun, inConfig, inRun]

theorem exec_readStatus {s : State} (hs : s.port.station ≠ .notQualified) :
    exec (.readStatus { params := [], early := false }) s =
      .next (answered (done (statusOctets (clockOutAnswer 1 s)) (clockOutAnswer 1 s))) :=
  congrArg _ (selectCommand_taken hs (by decide) rfl (inConfigOrRun_of_qualified hs))

/-- Settles O10: the answer part by part, each field read from the part that holds it. -/
theorem readStatusReturnsTheStatusOctets : Obligations.ReadStatusReturnsTheStatusOctets := by
  refine ⟨statusCodes, fun s hs => ?_⟩
  obtain ⟨hstation, hnumber, htimeState, hgrade, hepoch, hday, hus, hfraction, htrim, hstanding, hscore, hitems⟩ :=
    statusHead_layout s hs
  obtain ⟨hevents, hslots, hdeadlines, hrefused, hunmatched⟩ := statusOccupancies_layout s
  obtain ⟨hdeviations, hdisplaced, hsupply⟩ := statusDeviations_layout s
  refine ⟨answersWith_done (exec_readStatus hs) rfl, statusOctets_length s, hstation, hnumber, htimeState, hgrade,
    hepoch, hday, hus, hfraction, htrim, hstanding, hscore, hitems, statusHits_layout s, hevents, hslots, hdeadlines,
    hrefused, hunmatched, fun k => ?urgent, hdeviations, hdisplaced, hsupply, fun k => ?clock⟩
  case urgent =>
    obtain ⟨hflag, hcount, hfirst, hnever⟩ := urgentOctets_layout s.report.urgent[k]
    refine ⟨(field_statusUrgent_of s k (by decide)).trans hflag, (field_statusUrgent_of s k (by decide)).trans hcount,
      fun d hd => ?raised, fun hno => (field_statusUrgent_of s k (by decide)).trans (hnever hno)⟩
    case raised =>
      obtain ⟨hfepoch, hfday, hfus⟩ := hfirst d hd
      exact ⟨(field_statusUrgent_of s k (by decide)).trans hfepoch, (field_statusUrgent_of s k (by decide)).trans hfday,
        (field_statusUrgent_of s k (by decide)).trans hfus⟩
  case clock =>
    obtain ⟨hconfigured, hstate, hflags, hdial, hpolarity, hunproven⟩ :=
      clockOctets_layout s.port.image.lines[k].isSome s.clocks[k]
    exact ⟨(field_statusClocks_of s k (by decide)).trans hconfigured,
      (field_statusClocks_of s k (by decide)).trans hstate, (field_statusClocks_of s k (by decide)).trans hflags,
      (field_statusClocks_of s k (by decide)).trans hdial, (field_statusClocks_of s k (by decide)).trans hpolarity,
      (field_statusClocks_of s k (by decide)).trans hunproven⟩

end Sys2Proof.Machine
